-- ==== Sys2Proof/Word.lean ====
section
/-!
DEFINITION. The word types of the model and its sparse maps.

Bit vectors hold what the manual treats as bits (registers, elements, encoded fields).  Counts, positions and
identifiers are natural numbers.
-/
namespace Sys2Proof

/-- One byte. -/
abbrev Byte := BitVec 8

/-- One 64-bit word: a scalar register, a setup register, a descriptor field. -/
abbrev W64 := BitVec 64

/-- One 48-bit slot of a bundle (R103). -/
abbrev SlotWord := BitVec 48

/-- A sparse table: keys strictly rising, absent keys read as a default that the reader names. -/
abbrev Map (α : Type) := List (Nat × α)

/-- Byte-addressed storage in the host's cell form; an unlisted address reads as zero. -/
abbrev Memory := List Host.Cell

end Sys2Proof
end

