-- ==== Sys2Proof/Syntax.lean ====
section
/-!
DEFINITION. The commands of the block: one constructor for each row of spec/opcode_table.json, with the operands its step takes.

A command is a register access, a descriptor, a management request, or an event of the hardware with what the device
observes from outside in it (bytes it reads from host memory, what a decoder finds, a sensor reading).
-/
namespace Sys2Proof

/-- One row output as a faulty array delivers it in place of the computed one (R51, R56): the accumulator contribution, its
side state, the compare-domain value and, in the BF16 group, the magnitude sum. -/
structure RowFault where
  row : Nat
  x : BitVec 112
  special : BitVec 2
  inexact : Bool
  range : Bool
  cmp : BitVec 120
  mag : BitVec 32
  deriving DecidableEq, Repr

/-- Where a crate enters the device. -/
inductive CrateSource where
  | port (p : Nat)
  | tile (k : Nat)
  deriving DecidableEq, Repr

/-- A TDISP request that changes a function's state. -/
inductive TdispRequest where
  | lock | start | stop
  deriving DecidableEq, Repr

/-- The commands. -/
inductive Instr where
  /-- A slot holding opcode 0x00 issues with no effect, as part of a bundle issue (R111). `slot` 0 to 4 is M, V, L, X or C; `parity` is a
  parity error of the bundle (R77). -/
  | tileNop (t : Nat) (slot : Nat) (parity : Bool)
  /-- A cache line fill from the cellar completes and the line becomes valid with its tag (R75). -/
  | icacheLineFillDone (t : Nat) (line : Nat) (faults : List (Nat × Option (List Byte)))
  /-- An issued operation's result is written to its register at the cycle fixed by its latency (R105). -/
  | opResultWriteback (t : Nat)
  /-- Issues one fill of the array and one stream of N weight vectors under the named configuration (R35). -/
  | mmul (t : Nat) (w : SlotWord) (flips : List (Nat × BitVec 72))
  /-- Writes a matrix configuration register from a scalar register (R113). -/
  | mcfg (t : Nat) (w : SlotWord)
  /-- At the stream start cycle the shadow and active stationary registers swap and weight streaming begins (R36). -/
  | arrayStreamStart (t : Nat)
  /-- The checksum compare for one weight vector completes and its exact results are written to the accumulation store (R51). `faults` and
  `chk` replace row and checksum outputs a fault has changed; `ecc` are bits changed in the store. -/
  | arrayVectorCompare (t : Nat) (faults : List RowFault) (chk : Option (BitVec 120)) (ecc : List (Nat × BitVec 120))
  /-- Rounded results for one vector are written to the larder or a vector register (R45). -/
  | arrayResultWrite (t : Nat)
  /-- Vector integer add with 32-bit wrap (R116). -/
  | vaddI (t : Nat) (w : SlotWord)
  /-- Vector integer subtract with 32-bit wrap (R116). -/
  | vsubI (t : Nat) (w : SlotWord)
  /-- Vector bitwise AND (R116). -/
  | vand (t : Nat) (w : SlotWord)
  /-- Vector bitwise OR (R116). -/
  | vor (t : Nat) (w : SlotWord)
  /-- Vector bitwise XOR (R116). -/
  | vxor (t : Nat) (w : SlotWord)
  /-- Vector shift left by lane or immediate amount (R116). -/
  | vshl (t : Nat) (w : SlotWord)
  /-- Vector logical or arithmetic shift right (R116). -/
  | vshr (t : Nat) (w : SlotWord)
  /-- Vector integer compare setting lanes to all ones or zero (R116). -/
  | vcmpI (t : Nat) (w : SlotWord)
  /-- Vector lane select by a condition register (R116). -/
  | vsel (t : Nat) (w : SlotWord)
  /-- Vector signed integer minimum (R116). -/
  | vminI (t : Nat) (w : SlotWord)
  /-- Vector signed integer maximum (R116). -/
  | vmaxI (t : Nat) (w : SlotWord)
  /-- Vector signed integer absolute value (R116). -/
  | vabsI (t : Nat) (w : SlotWord)
  /-- Vector integer multiply keeping the low 32 bits (R116). -/
  | vmulI (t : Nat) (w : SlotWord)
  /-- Broadcasts a scalar register's low 32 bits to every lane (R116). -/
  | vbcs (t : Nat) (w : SlotWord)
  /-- Broadcasts one lane of a vector register to every lane (R116). -/
  | vbcl (t : Nat) (w : SlotWord)
  /-- Moves one vector lane, zero-extended, to a scalar register (R116). -/
  | vmvs (t : Nat) (w : SlotWord)
  /-- Moves a scalar register's low 32 bits into one vector lane (R116). -/
  | vmsv (t : Nat) (w : SlotWord)
  /-- Permutes vector lanes by a lane pattern (R116). -/
  | vperm (t : Nat) (w : SlotWord)
  /-- FP32 vector negate (R116). -/
  | vnegF (t : Nat) (w : SlotWord)
  /-- FP32 vector absolute value (R116). -/
  | vabsF (t : Nat) (w : SlotWord)
  /-- FP32 vector minimum with canonical NaN and signed-zero ordering (R63). -/
  | vminF (t : Nat) (w : SlotWord)
  /-- FP32 vector maximum with canonical NaN and signed-zero ordering (R63). -/
  | vmaxF (t : Nat) (w : SlotWord)
  /-- FP32 vector compare under IEEE rules (R116). -/
  | vcmpF (t : Nat) (w : SlotWord)
  /-- FP32 vector add (R116). -/
  | vaddF (t : Nat) (w : SlotWord)
  /-- FP32 vector subtract (R116). -/
  | vsubF (t : Nat) (w : SlotWord)
  /-- FP32 vector multiply (R116). -/
  | vmulF (t : Nat) (w : SlotWord)
  /-- FP32 vector fused multiply-add with one rounding (R116). -/
  | vfmaF (t : Nat) (w : SlotWord)
  /-- Converts vector lanes between permitted formats with packing, rounding and saturation (R117). -/
  | vcvt (t : Nat) (w : SlotWord)
  /-- Quantises two 32-lane groups into MXFP6 or MXFP4 blocks with E8M0 scales (R102). -/
  | vmxq (t : Nat) (w : SlotWord)
  /-- Vector base-2 exponential (R64). -/
  | vexp2 (t : Nat) (w : SlotWord)
  /-- Vector reciprocal (R64). -/
  | vrcp (t : Nat) (w : SlotWord)
  /-- Vector reciprocal square root (R64). -/
  | vrsq (t : Nat) (w : SlotWord)
  /-- Vector natural exponential (R64). -/
  | vexp (t : Nat) (w : SlotWord)
  /-- FP32 maximum reduction over lane groups (R116). -/
  | vrmax (t : Nat) (w : SlotWord)
  /-- FP32 minimum reduction over lane groups (R116). -/
  | vrmin (t : Nat) (w : SlotWord)
  /-- FP32 sum reduction over lane groups in fixed pairwise order (R116). -/
  | vrsum (t : Nat) (w : SlotWord)
  /-- Online softmax running-maximum update producing the rescale factor (R65). -/
  | smxMax (t : Nat) (w : SlotWord)
  /-- Online softmax probability and running-sum update (R65). -/
  | smxSum (t : Nat) (w : SlotWord)
  /-- Fills a vector register with 16 Philox-4x32-10 blocks (R66). -/
  | vrng (t : Nat) (w : SlotWord)
  /-- Loads 8 bytes from the larder into a scalar register (R118). -/
  | lds (t : Nat) (w : SlotWord) (flips : List (Nat × BitVec 72))
  /-- Stores a scalar register to the larder (R118). -/
  | sts (t : Nat) (w : SlotWord)
  /-- Loads bytes from the larder into the low bytes of a vector register (R118). -/
  | ldv (t : Nat) (w : SlotWord) (flips : List (Nat × BitVec 72))
  /-- Stores the low bytes of a vector register to the larder (R118). -/
  | stv (t : Nat) (w : SlotWord)
  /-- Saves accumulation-store entries to the larder as exact partials (R43). `ecc`: entry, lane and the bits a fault changed. -/
  | asave (t : Nat) (w : SlotWord) (ecc : List (Nat × Nat × BitVec 120))
  /-- Replaces accumulation-store entries with partials from the larder, taking tags from lane 0 (R466). -/
  | aload (t : Nat) (w : SlotWord) (flips : List (Nat × BitVec 72))
  /-- Adds exact or FP32 partials from the larder into accumulation-store entries (R92). -/
  | aadd (t : Nat) (w : SlotWord) (flips : List (Nat × BitVec 72)) (ecc : List (Nat × Nat × BitVec 120))
  /-- Starts a cellar-to-larder plan stream that increments an arrival counter on completion (R118). -/
  | crd (t : Nat) (w : SlotWord)
  /-- Starts a larder-to-cellar plan stream that increments an arrival counter on completion (R118). -/
  | cwr (t : Nat) (w : SlotWord) (flips : List (Nat × BitVec 72))
  /-- A plan stream's transfers complete and the issuing tile's arrival counter increments (R212). -/
  | cellarStreamDone (k id : Nat) (faults : List (Nat × Option (List Byte)))
  /-- A page's copy ends and the page is redirected to its remap page (R204). -/
  | pageRedirect (site page : Nat) (fixed bad : List Nat)
  /-- Starts a mesh transfer from the larder to another tile's larder (R119). -/
  | xsend (t : Nat) (w : SlotWord) (flips : List (Nat × BitVec 72))
  /-- Builds and sends crates with headers from a scalar register (R122). -/
  | xcrate (t : Nat) (w : SlotWord) (flips : List (Nat × BitVec 72))
  /-- Sends larder data to a hub engine channel (R119). -/
  | xhub (t : Nat) (w : SlotWord) (flips : List (Nat × BitVec 72))
  /-- Writes a crate receive binding (R123). -/
  | xbind (t : Nat) (w : SlotWord)
  /-- A mesh transfer's last bytes are written to the receiving larder and its arrival counter increments (R121). -/
  | meshTransferArrival (k id : Nat)
  /-- An arriving crate matches a binding, its payload is written to the ring and the arrival counter increments (R123). -/
  | crateReceive
  /-- Loads a loop counter and makes a loop over the following bundles active (R126). -/
  | loop (t : Nat) (w : SlotWord)
  /-- Holds issue for D + 1 cycles (R129). -/
  | dly (t : Nat) (w : SlotWord)
  /-- A delay count runs out and the next bundle issues (R129). -/
  | dlyExpire (t : Nat)
  /-- Holds issue until the next beat of the tile's region (R129). -/
  | bend (t : Nat) (w : SlotWord)
  /-- Holds issue until the named plan beat starts, or raises TIMING_BREAK if it has begun (R129). -/
  | align (t : Nat) (w : SlotWord)
  /-- Marks a step end for the tile's engine (R130). -/
  | stepm (t : Nat) (w : SlotWord)
  /-- Ends the tile's program until the plan is started again (R129). -/
  | halt (t : Nat) (w : SlotWord)
  /-- Makes the next bundle the given address (R125). -/
  | jmp (t : Nat) (w : SlotWord)
  /-- Branches to the given address under a predicate in untimed code (R125). -/
  | br (t : Nat) (w : SlotWord)
  /-- Invalidates a cache line and starts its fill of 64 bundles from the cellar (R132). -/
  | cfetch (t : Nat) (w : SlotWord)
  /-- Writes the instruction-cache pin mask (R134). -/
  | pinset (t : Nat) (w : SlotWord)
  /-- Checks an arrival counter; passes and may consume, raises LINK_LATE or TIMING_BREAK in timed code, or stalls in untimed code (R131). -/
  | achk (t : Nat) (w : SlotWord)
  /-- An untimed ACHK stalls 2^26 cycles, raises TIMING_BREAK and issues without effect (R131). -/
  | achkStallTimeout (t : Nat)
  /-- Scalar add (R125). -/
  | sadd (t : Nat) (w : SlotWord)
  /-- Scalar subtract (R125). -/
  | ssub (t : Nat) (w : SlotWord)
  /-- Scalar AND (R125). -/
  | sand (t : Nat) (w : SlotWord)
  /-- Scalar OR (R125). -/
  | sor (t : Nat) (w : SlotWord)
  /-- Scalar XOR (R125). -/
  | sxor (t : Nat) (w : SlotWord)
  /-- Scalar shift left (R125). -/
  | sshl (t : Nat) (w : SlotWord)
  /-- Scalar logical shift right (R125). -/
  | sshr (t : Nat) (w : SlotWord)
  /-- Scalar arithmetic shift right (R125). -/
  | ssra (t : Nat) (w : SlotWord)
  /-- Scalar multiply keeping the low 64 bits (R125). -/
  | smul (t : Nat) (w : SlotWord)
  /-- Scalar add of a signed immediate (R125). -/
  | saddi (t : Nat) (w : SlotWord)
  /-- Writes a 16-bit immediate into one quarter of a scalar register (R125). -/
  | smovi (t : Nat) (w : SlotWord)
  /-- Copies a loop counter into a scalar register (R125). -/
  | smvlc (t : Nat) (w : SlotWord)
  /-- Sets a predicate from a compare of two scalar registers (R125). -/
  | pcmp (t : Nat) (w : SlotWord)
  /-- Sets a predicate from a compare of a scalar register and an immediate (R125). -/
  | pcmpi (t : Nat) (w : SlotWord)
  /-- Sets a predicate from a loop counter equality test (R125). -/
  | plc (t : Nat) (w : SlotWord)
  /-- Sets a predicate from a logical combination of two predicates (R125). -/
  | plog (t : Nat) (w : SlotWord)
  /-- After a break or halt request the halt scope stops issuing at the end of the beat and HALTED is set (R141). -/
  | debugHalt (u : Nat)
  /-- A write of HALT_REQ requests a halt of the scope at the end of the current beat (R142). -/
  | dbgHaltReq (fn : Nat)
  /-- A write of RESUME clears HALTED and resumes issue at the next non-landing beat (R142). -/
  | dbgResume (fn : Nat)
  /-- A write of STEP runs exactly one beat and halts again (R142). -/
  | dbgStep (fn : Nat)
  /-- A write of DBG_PEEK_ADDR with GO starts a steward-port read of tile state while halted (R144). -/
  | dbgPeek (fn : Nat) (v : W64)
  /-- A peek read completes and DONE is set with the word in DBG_PEEK_DATA (R144). `flips`, `ecc`: bits that faults have changed in the larder
  word or store lane read (R44, R72). -/
  | dbgPeekDone (fn : Nat) (flips : List (Nat × BitVec 72)) (ecc : List (Nat × BitVec 120))
  /-- A new frame starts at the mark position, BEAT_FRAME increments and frame-start exchanges are made (R158). `mark`: the incoming stream
  carries an OADmark at the expected place. -/
  | frameStart (mark : Bool)
  /-- A suppressed edge arrives at an unexpected position and is treated as a displaced mark (R188). `pos`: the bit position the mark came at. -/
  | displacedMark (pos : Nat)
  /-- Four reference edges are missing and the PLL enters holdover (R186). -/
  | refLost
  /-- After 1 ms of steady reference the PLL relocks and the mark is acquired afresh (R187). -/
  | refRelock
  /-- At each slot boundary the slip unit checks its regions, slips or starts the next plan beat (R174). -/
  | slotBoundary (u : Nat)
  /-- A landing beat starts and carries no work or a catch-up plan beat per the slip debt (R175). -/
  | landingBeatStart (u : Nat)
  /-- A region finishes its work cycles for the plan beat and gates its clock (R163). -/
  | workCyclesDone (r : Nat)
  /-- A region whose tiles have all finished and whose routers are empty gates early (R166). -/
  | earlyGate (r : Nat)
  /-- A droop monitor severity lengthens the region's next period (R167). -/
  | stretch (r : Nat) (sev : Nat)
  /-- A write of BEAT_CFG sets pending beat values, or has no effect when invalid or locked (R191). -/
  | beatCfgWrite (fn : Nat) (v : W64) (lo hi : Bool)
  /-- Pending beat values take effect at the next frame start (R191). -/
  | beatCfgApply (u : Nat)
  /-- Requests an operating-point change at a named frame (R182). -/
  | opChange (fn q : Nat)
  /-- At the named frame every region's divider changes and the OP_CHANGE completes (R183). -/
  | opChangeApply
  /-- A per-bank or landing refresh window opens and no cellar transfer is served in it (R211). -/
  | refreshWindow (landing : Bool) (j : Nat)
  /-- A memory device reports a temperature needing doubled refresh (R211). -/
  | cellarHot (site : Nat)
  /-- The staging engine begins fetching a staging entry from the vault at its lead beat (R224). -/
  | stagingFetchStart (c e : Nat)
  /-- A vault page arrives, its tag is checked and it is written to its cellar destination or marked failed (R222). -/
  | vaultPageRead (c e : Nat) (reads : List (List Byte × List Byte)) (faults : List (Nat × Option (List Byte)))
  /-- A FREE_DIRTY shelf finishes zeroing and becomes FREE_CLEAN (R218). -/
  | shelfZeroed (c sh : Nat)
  /-- Zeroing of a new extent completes and CTX_CREATE completes OK (R270). -/
  | extentZeroed (c : Nat)
  /-- A port starts a codeword and fills its crate positions in priority order (R242). -/
  | codewordSend (p : Nat)
  /-- A received codeword is decoded, sequenced, acknowledged, authenticated and its crates released (R250). -/
  | codewordReceive (p : Nat) (cw : List Byte) (bad : Bool) (corr : List Nat)
  /-- The expected codeword has not arrived within round trip plus 100 ns and the NAK is repeated (R251). -/
  | nakRepeat (p : Nat)
  /-- A crate entering a device is routed, delivered, forwarded or discarded (R245). -/
  | crateIngress (src : CrateSource)
  /-- A held F crate is written once its tally and receive counts allow (R247). -/
  | fenceRelease (n : Nat)
  /-- An F crate has been held over 1 ms and FENCE_STALL is raised (R248). -/
  | fenceStall (n : Nat)
  /-- A lane loses lock and fails, or a global lane starts a hold (R252). -/
  | laneLockLoss (p lane : Nat)
  /-- A global lane has not regained lock within 20 us and fails (R252). -/
  | laneRelockTimeout (p lane : Nat)
  /-- A port folds onto its siblings and resends crates from the fold SEQ (R253). -/
  | linkFold (p : Nat)
  /-- A fold-state message gives the SEQ from which to resend on siblings (R253). -/
  | foldStateReceive (p : Nat)
  /-- A 1 s replay counting interval ends and a lasting replay rate degrades a lane (R420). -/
  | replayRateInterval (p : Nat)
  /-- A port in DETECT finds no neighbour for 50 ms and goes DOWN (R256). -/
  | detectTimeout (p : Nat)
  /-- A port in CHECK sends its check message every 100 us (R237). -/
  | checkMessageSend (p : Nat)
  /-- A received check message is compared with the pairing entry, leading to KEYING or QUARANTINE (R257). -/
  | checkMessageReceive (p : Nat)
  /-- A port in KEYING resends its keying message every 1 ms (R237). -/
  | keyingMessageSend (p : Nat)
  /-- A keying message is verified and keys are derived; FINAL messages lead to MEASURE (R262). -/
  | keyingMessageReceive (p : Nat)
  /-- KEYING lasts 50 ms without completion and the port goes DOWN (R237). -/
  | keyingTimeout (p : Nat)
  /-- A link message is incomplete 100 us after its first part and is discarded (R237). -/
  | linkMessageTimeout (p sub : Nat)
  /-- A probe arrives, its one-way sample is taken and it is echoed (R259). -/
  | probeReceive (p : Nat)
  /-- An echo arrives and a round-trip sample is taken (R259). -/
  | echoReceive (p : Nat)
  /-- Probing completes and the port goes ACTIVE or DOWN for a long path (R256). -/
  | measureDone (p : Nat)
  /-- A neighbour's frame-start crate gives its frame, epoch, operating point and latency sample (R236). -/
  | frameStartCrateReceive (p : Nat)
  /-- A quarantined port sends a check crate every 1 s (R256). -/
  | quarantineCheckSend (p : Nat)
  /-- A write of LINK_PCTLn.RETRAIN retrains a QUARANTINE or DOWN port (R256). -/
  | linkRetrain (fn p : Nat)
  /-- A domain fault message is discarded or taken as new, entering recovery and being forwarded (R429). -/
  | faultMessageReceive
  /-- Plan beat 0 of a start, replay or resume begins with tiles set up and bindings written (R154). -/
  | planStart (c : Nat) (faults : List (Nat × Option (List Byte)))
  /-- After the end mark the step commits or fails and firmware performs the boundary actions (R299). -/
  | stepCommit (c : Nat) (faults : List (Nat × Option (List Byte)))
  /-- The array row test ends and the steward records a repair or none (R58). -/
  | arrayRowTestDone (k : Nat) (rows : List Nat) (elsewhere : Bool)
  /-- A waiting output record is written into a hatch slot in DEVICE ownership (R309). -/
  | outputRecordPlace (fn h : Nat)
  /-- A request descriptor takes effect at its boundary or at the end mark of step AT_STEP - 1 (R312). -/
  | requestDescriptorApply (c : Nat)
  /-- At the first slot boundary after a cancel executes the request's outputs stop (R320). -/
  | cancelOutputStop (c id : Nat)
  /-- At the effect point the request stops drawing and its slot becomes dummy until the end mark (R320). -/
  | cancelEffect (c id : Nat)
  /-- A logit transfer from a tile arrives at the sampling unit (R313). -/
  | logitDelivery (k : Nat)
  /-- With all logits present a lane draws one token and writes the draw record (R314). -/
  | draw (c e slot : Nat) (faults : List (Nat × Option (List Byte)))
  /-- A write to a doorbell's SQ_TAIL rings the queue (R327). -/
  | sqTail (fn q : Nat) (v : W64) (lo : Bool)
  /-- A write to CQ_HEAD frees completion ring entries (R329). -/
  | cqHead (fn q : Nat) (v : W64) (lo : Bool)
  /-- The queue engine fetches a descriptor from a submission ring (R329). -/
  | descriptorFetch (fn q : Nat) (bytes : List Byte)
  /-- A descriptor fetch returns a CXL.io error or poison and the queue stops (R333). -/
  | fetchError (fn q : Nat)
  /-- A descriptor whose work took time completes, writing its entry, flag and interrupt (R332). -/
  | descriptorComplete (n : Nat)
  /-- Descriptor NOP completes OK (R334). -/
  | nop (fn q : Nat)
  /-- Waits until a sync flag reaches a value or a timeout (R340). -/
  | wait (fn q : Nat)
  /-- A waited flag reaches its value and the WAIT completes OK (R340). -/
  | waitSatisfied (fn q : Nat)
  /-- A WAIT reaches TIMEOUT_US and completes WAIT_TIMEOUT (R340). -/
  | waitTimeout (fn q : Nat)
  /-- Firmware finds wait cycles and completes their WAITs WAIT_CYCLE (R341). -/
  | waitCycleCheck (fn : Nat) (later : List (Nat × List (List Byte)))
  /-- SIGNAL with mode SET writes a value to a sync flag (R339). -/
  | signalSet (fn q : Nat)
  /-- SIGNAL with mode ADD adds a saturating value to a sync flag (R339). -/
  | signalAdd (fn q : Nat)
  /-- Creates a context, takes a key slot, places and starts zeroing its extent (R270). -/
  | ctxCreate (fn q : Nat) (params : List Byte)
  /-- Cancels a context's requests, stops its plan and tears it down (R275). -/
  | ctxDestroy (fn q : Nat)
  /-- Teardown ends, the key slot is erased, the extent released and CTX_DESTROY completes (R275). -/
  | ctxTeardownDone (c : Nat)
  /-- Copies, checks and places a plan image and selects its variant (R284). -/
  | planLoad (fn q : Nat) (image : List Byte)
  /-- Checks a manifest and load table and fetches the device's shards (R279). -/
  | weightsLoad (fn q : Nat) (manifest table list : List Byte)
  /-- A shard fetch ends and its digest verifies or the attempt fails (R280). `data` is what a host or vault source gave; `err` is an error of
  the source. -/
  | shardAttemptDone (c l n : Nat) (data : List Byte) (err : Bool)
  /-- At TIMEOUT_MS / 2 unfinished first attempts are abandoned as failed (R280). -/
  | shardFirstDeadline (c l : Nat)
  /-- A load's TIMEOUT_MS passes with data unverified and it completes SHARD_MISSING (R280). -/
  | loadTimeout (c l : Nat)
  /-- Fetches and verifies changed shards into the staging area (R285). -/
  | weightsSwapStage (fn q : Nat) (manifest table : List Byte)
  /-- Commits a staged set at the barrier (R285). -/
  | weightsSwapCommit (fn q : Nat)
  /-- Stages changed shards and then commits them at the barrier (R285). -/
  | weightsSwapStageAndCommit (fn q : Nat) (manifest table : List Byte)
  /-- Fetches changed shards straight into their destinations at the barrier (R285). -/
  | weightsSwapDirect (fn q : Nat) (manifest table : List Byte)
  /-- At the barrier end mark the next generation is assigned and copies begin with void steps (R287). -/
  | swapBarrierStart (c : Nat)
  /-- The swap's copies complete and the new generation becomes current (R287). -/
  | swapCommitDone (c : Nat) (faults : List (Nat × Option (List Byte)))
  /-- Loads a new adapter ID into a free slot (R292). -/
  | adapterLoad (fn q : Nat) (manifest table : List Byte)
  /-- Loads a new generation of an adapter ID into a free slot (R292). -/
  | adapterReplace (fn q : Nat) (manifest table : List Byte)
  /-- ADAPTER_REPLACE with REMOVE withdraws an adapter ID at the next boundary (R293). -/
  | adapterRemove (fn q : Nat)
  /-- No adapter slot is freed within TIMEOUT_MS and the descriptor completes ADAPTER_BUSY (R292). -/
  | adapterSlotTimeout (c n : Nat)
  /-- Admits a request, copying its block and input, or starts the plan for a READY context (R312). `block`, `input` and `mask` are the bytes
  read from host memory. -/
  | reqAdmit (fn q : Nat) (block input mask : List Byte) (faults : List (Nat × Option (List Byte)))
  /-- Feeds further token input to a live request (R312). -/
  | reqFeedTokens (fn q : Nat) (bytes : List Byte)
  /-- Feeds further data positions to a live request (R312). -/
  | reqFeedData (fn q : Nat) (bytes : List Byte)
  /-- Feeds a speculative candidate tree to a live request (R317). -/
  | reqFeedTree (fn q : Nat) (bytes : List Byte)
  /-- Cancels one request (R320). -/
  | reqCancel (fn q : Nat)
  /-- REQ_CANCEL with ALL cancels every live request of the context (R320). -/
  | reqCancelAll (fn q : Nat)
  /-- Moves bytes between host memory, a context and a hatch slot (R342). -/
  | copy (fn q : Nat) (data : List Byte) (faults : List (Nat × Option (List Byte)))
  /-- Opens an encode stream on an engine with room (R357). -/
  | encodeOpen (fn q : Nat)
  /-- Encodes frames at once or after a request's retirement (R357). -/
  | encodeFrames (fn q : Nat)
  /-- The named request completes and the waiting FRAMES encodes or completes with its status (R357). -/
  | encodeFramesRelease (fn st : Nat)
  /-- An encoded frame's bitstream slots are written and handed back (R358). -/
  | encodeFrameDone (fn st : Nat) (bits : List Byte) (faults : List (Nat × Option (List Byte)))
  /-- Closes a stream after its frames, writing an END_OF_STREAM slot (R357). -/
  | encodeClose (fn q : Nat)
  /-- Checks and schedules a domain plan start at frame START_LOCAL (R345). -/
  | domainStart (fn q : Nat) (faults : List (Nat × Option (List Byte)))
  /-- Schedules the domain plan to stop at a step's end mark (R345). -/
  | domainStop (fn q : Nat)
  /-- The domain plan stops, requests retire CANCELLED and the device returns to partitioned mode (R345). -/
  | domainStopEffect
  /-- Resumes a domain from recovery at a new epoch and frame (R432). -/
  | domainResume (fn q : Nat)
  /-- Schedules a checkpoint of a context at a step (R406). -/
  | checkpoint (fn q : Nat) (areas : List Byte)
  /-- At the snapshot end mark the size is checked and a void-step barrier captures state (R407). -/
  | checkpointSnapshot (c : Nat) (faults : List (Nat × Option (List Byte)))
  /-- The encrypted checkpoint and its header are written and CHECKPOINT completes (R407). -/
  | checkpointWriteDone (c : Nat) (faults : List (Nat × Option (List Byte)))
  /-- Verifies a checkpoint and restores a context's state (R409). -/
  | restore (fn q : Nat) (data wrapped : List Byte) (faults : List (Nat × Option (List Byte)))
  /-- Writes a signed attestation report for a context (R393). -/
  | attest (fn : Nat) (q : Nat) (request : List Byte)
  /-- ATTEST with KEY also derives and installs the context's hatch key (R394). -/
  | attestKey (fn : Nat) (q : Nat) (request : List Byte)
  /-- A write of EN = 1 enables a queue and resets its positions (R328). -/
  | queueEnable (fn q : Nat) (v : W64) (lo : Bool)
  /-- A write of EN = 0 stops fetching and discards unexecuted descriptors (R333). -/
  | queueDisable (fn q : Nat) (v : W64) (lo : Bool)
  /-- A write of EN = 1 enables a hatch, latches its mode or sets CFG_ERR (R362). -/
  | hatchEnable (fn h : Nat) (v : W64) (lo : Bool)
  /-- A write of EN = 0 disables a hatch after the slot in progress (R362). -/
  | hatchDisable (fn h : Nat) (v : W64) (lo : Bool)
  /-- A host store invalidates a flag line and the device rereads it (R347). -/
  | hatchFlagRefresh (fn h line : Nat) (flags : List Byte)
  /-- The home port has been down 10 ms and the function moves to the other port (R324). -/
  | failover (fn : Nat)
  /-- Memory space is enabled at the new port and unflushed writes are replayed (R324). -/
  | failoverResume (fn : Nat)
  /-- The TDISP state leaves RUN and plain hatches and queues are disabled (R353). -/
  | tdispExit (fn st : Nat)
  /-- A write of EVT_CFG.EN = 1 enables the event ring (R441). -/
  | eventRingEnable (fn : Nat) (v : W64) (lo : Bool)
  /-- A write of EVT_POS.HEAD frees event ring records (R440). -/
  | evtHeadWrite (fn : Nat) (v : W64) (lo : Bool)
  /-- MSI-X vector 64 is raised after records, at most once per 10 us (R440). -/
  | eventInterrupt (fn : Nat)
  /-- A write of DETM_CTRL.DET sets deterministic mode or is ignored (R398). -/
  | detWrite (fn : Nat) (v : W64) (lo : Bool)
  /-- A write of PWR_CAP sets the power cap if in range (R456). `lo`: the write covers bits [31:0]; `other`: the value the effecter writes in
  the same cycle. -/
  | pwrCapWrite (fn : Nat) (v : W64) (lo : Bool) (other : Option Nat)
  /-- A write of 0 to a counter field clears it and its OVF bit (R437). -/
  | counterClear (fn : Nat) (off : Nat) (v : W64) (size : Nat) (more : Nat)
  /-- A write of 1 clears a W1C status bit unless hardware sets it in the same cycle (R439). -/
  | statusW1c (fn : Nat) (off : Nat) (v : W64) (size : Nat) (race : W64)
  /-- A write to any other setup register updates writable fields or has no effect (R8). `off`: BAR0 offset; `size`: 4 or 8 bytes. -/
  | registerWrite (fn : Nat) (off : Nat) (v : W64) (size : Nat)
  /-- Input reaches 38.0 V, the PSC charges bulk capacitance and brings up the rails, starting a cold boot (R451). `gone`: how many ms the
  input was absent. -/
  | powerUp (gone : Nat)
  /-- Reverse input is blocked and the REVERSED cause is recorded (R447). -/
  | reversedInput (cut : Option Nat)
  /-- PERST# assertion withdraws functions, stops plans and idles links (R364). -/
  | perstAssert
  /-- PERST# deassertion after 100 us starts a warm boot (R363). `held`: the ticks it was asserted. -/
  | perstDeassert (held : Nat)
  /-- The management command requests a warm boot, or is answered BUSY during a boot (R365). -/
  | warmBoot
  /-- Returns CHARTER_STATUS and the boot source registers (R365). -/
  | readBoot
  /-- Writes one boot source register (R365). -/
  | writeBoot (off : Nat) (v : W64)
  /-- The boot ROM starts, locks the PLL and reads the fuses (R368). -/
  | bootRomStart
  /-- CA has not trained within 1 s and the boot function moves to CB (R366). -/
  | bootPortSwitch
  /-- A write of GO while WAITING starts the bundle fetch (R369). `mgmt`: by WRITE_BOOT on the management port; `v` is the value written to
  CHARTER_BOOT_CTL. -/
  | bootGo (mgmt : Bool) (v : W64)
  /-- The bundle fetch times out after 1 s and the device enters boot hold (R370). -/
  | bootFetchTimeout
  /-- The bundle is fetched, verified, protection is set up, fuses programmed, memory scrubbed and the lock set (R368). `bundle`: none on a
  source error; `took` ticks; where a rollback or enrolment fuse fails, how far it came; spoilt repair slots; cellar pages found in error. -/
  | bootBundleFetched (bundle : Option (List Byte)) (took : Nat) (rb : Option Nat) (en : Option Nat) (bad : List Nat) (pages : List (Nat × Nat)) (cut : Option Nat)
  /-- Oadlink training finishes and the boot is complete (R368). -/
  | bootComplete
  /-- SPDM request for supported versions (R389). `who`: a function, or none for the management port. -/
  | getVersion (who : Option Nat)
  /-- SPDM request for responder capabilities (R389). `who`: a function, or none for the management port. -/
  | getCapabilities (who : Option Nat)
  /-- SPDM algorithm negotiation (R389). -/
  | negotiateAlgorithms (who : Option Nat) (agree : Bool)
  /-- SPDM request for certificate chain digests (R389). `who`: a function, or none for the management port. -/
  | getDigests (who : Option Nat)
  /-- SPDM request for the slot 0 certificate chain (R389). -/
  | getCertificate (who : Option Nat) (slot : Nat) (offset : Nat) (length : Nat)
  /-- SPDM challenge signed by the identity key (R389). -/
  | challenge (who : Option Nat) (slot : Nat) (nonce : List Byte)
  /-- SPDM request returning the device measurements (R390). -/
  | getMeasurements (who : Option Nat) (index : Nat) (nonce : Option (List Byte))
  /-- SPDM ECDH key exchange opening a secure session (R389). -/
  | keyExchange (who : Option Nat) (key : List Byte)
  /-- SPDM session finish (R389). -/
  | finish (who : Option Nat) (good : Bool)
  /-- SPDM session end (R389). `who`: a function, or none for the management port. -/
  | endSession (who : Option Nat)
  /-- A PLDM request returns a sensor reading (R462). -/
  | pldmSensorRead (id : Nat) (reading : Nat) (source : Nat)
  /-- The PLDM effecter sets the power cap (R456). -/
  | pldmPowerCapSet (w : Nat)
  /-- Input below 38.0 V for 1 ms sets INPUT_LOW and operation continues (R447). -/
  | inputLow (mv : Nat) (back : Nat)
  /-- Input above 50.0 V for 1 ms sets INPUT_HIGH and operation continues (R447). -/
  | inputHigh (mv : Nat) (back : Nat)
  /-- Input below 35.0 V for 50 us shuts the module down without recording (R447). -/
  | inputLost
  /-- Input above 52.0 V opens the switch and records OVERVOLTAGE (R447). -/
  | overvoltage (cut : Option Nat)
  /-- Input current reaches the limit, is held there and CURRENT_LIMIT is raised (R444). -/
  | currentLimit (mv : Nat) (ma : Nat)
  /-- The current limit holds for 2 ms and the module shuts down with cause OVERCURRENT (R444). -/
  | overcurrent (cut : Option Nat)
  /-- A rail is short for 10 us or fails regulation and the module shuts down (R447). -/
  | railShort (rail : Nat) (cut : Option Nat)
  /-- A junction sensor reaches 115 C and the module shuts down (R447). -/
  | thermalShutdown (die : Nat) (cut : Option Nat)
  /-- A junction sensor reaches 105 C and OP_LOWER_REQUEST is raised (R455). -/
  | thermalHigh (temp : Nat) (source : Nat) (back : Nat)
  /-- Each 1 s at or above 105 C raises OP_LOWER_REQUEST again (R455). -/
  | thermalHighRepeat
  /-- Coolant inlet exceeds 45 C (R455). -/
  | coolantHot (temp : Nat) (back : Nat)
  /-- Coolant inlet falls below 17 C (R455). -/
  | coolantCold (temp : Nat) (back : Nat)
  /-- Load rises faster than the input stage covers and RAMP is set (R446). -/
  | rampExceeded (ma : Nat)
  /-- Input power exceeds the cap in 5 consecutive 1 ms intervals (R456). -/
  | powerCapExceeded (avgs : List Nat)
  /-- A core misses its 100 ms watchdog report and a control-core fault follows (R435). -/
  | watchdogMiss (core : Nat)
  /-- An uncorrectable firmware-memory error causes a control-core fault (R435). -/
  | firmwareMemoryUe (core : Nat)
  /-- A global lane that lost lock regains it within 20 us, the hold ends and the lane stays in service (R252). -/
  | laneLockRegained (p lane : Nat)
  /-- A port in DETECT finds its neighbour's lanes present and passes to EQUALISE (R256). -/
  | lanePresenceDetected (p : Nat) (cable : Bool) (bad : List Nat)
  /-- Transmitter and receiver adaptation of a port completes and the port passes to ALIGN (R256). -/
  | equaliseDone (p : Nat)
  /-- A port in ALIGN achieves codeword lock and lane deskew and passes to CHECK (R256). -/
  | codewordLock (p : Nat)
  /-- A CXL port's link goes down: QCFG_PORTn.UP clears, the failover count starts on a home port and vault traffic moves to the other port
  (R324). -/
  | cxlLinkDown (p : Nat)
  /-- A CXL port trains to its widest width and fastest rate and QCFG_PORTn shows the result (R321). -/
  | cxlLinkUp (p speed width : Nat)
  /-- A memory device no longer requires doubled refresh; per-bank windows return to every 1,792 ticks and MEM_SRETn.HOT clears (R211). -/
  | doubledRefreshEnd (site : Nat)
  /-- A TDISP request in an SPDM secure session on the DOE mailbox changes the function's TDISP state, for example into RUN (R389). -/
  | tdispMessage (fn : Nat) (req : TdispRequest)
  /-- A CXL IDE key-management request in an SPDM secure session programs keys and makes IDE active on a port (R389). -/
  | ideKeyManagement (fn : Nat) (port : Nat)
  /-- The plaintext copy of a staged checkpoint into the staging area completes, ending the void-step barrier and starting the encrypted write
  (R407). -/
  | checkpointStageCopyDone (c : Nat) (faults : List (Nat × Option (List Byte)))
  /-- RESTORE's data is still incomplete after TIMEOUT_MS and it completes SHARD_MISSING (R409). -/
  | restoreTimeout (c n : Nat)
  /-- After an over-voltage or lost-input shutdown, input stays within 38.0 to 50.0 V for 10 ms and a cold boot starts (R447). -/
  | inputInRange
  deriving DecidableEq, Repr

end Sys2Proof
end

