-- ==== Sys2Proof/Decode.lean ====
section
/-!
DEFINITION. The decoder of the command table: its rows give no bits.
-/
namespace Sys2Proof

/-- The command that a word spells by the bits of spec/opcode_table.json: the table gives no row any bits, so a word spells
no command. -/
def decodeTableWord (_nbits _w : Nat) : Option Instr := none

end Sys2Proof
end

