-- ==== Sys2Proof/Config.lean ====
section
/-!
DEFINITION. What the manual leaves to the implementation, and the free values.

Every constant without a body is a free value: no proof can see what it is, and a claim about it holds whatever it is.
-/
namespace Sys2Proof.Config

/-- FREE VALUE (log entry 10).  Which of the results within the error bound of R63 a transcendental operation returns:
R63 bounds the error and fixes that the result is a function of the operation and its input. -/
opaque transPick : Nat → BitVec 32 → Nat

/-- FREE VALUE (log entry 11).  Bits of the device's entropy source: the n-th draw (R386, R394, R407 name values drawn at random). -/
opaque entropy : Nat → Nat

/-- FREE VALUE (log entry 11).  The value a signature, key agreement or key derivation step produces that the manual
names but whose secret input it gives no bits of: a function of a purpose number and the bytes it is computed from. -/
opaque secret : Nat → List Byte → Nat

/-- FREE VALUE (log entry 12).  A result the manual gives an effect for but does not state: a function of a purpose
number and of a running counter of the state, or of the place it is met at: the request, the step and the draw, or the step, the work cycle,
the tile and the register (log entry 68). -/
opaque unstated : Nat → Nat → Nat

/-- FREE VALUE (log entry 41).  What the boot ROM holds, whose bits the manual does not give: 0 the Amioz firmware key hash (R373),
1 the Amioz root hash (R388), 2 the digest of the boot ROM itself (R390). -/
opaque rom : Nat → Nat

end Sys2Proof.Config
end

