-- ==== Sys2Proof/Machine/Map.lean ====
section
/-!
DEFINITION. The named operations of the sparse tables and memories: every part of the machine's state that is
addressed by a number is read and written through these.  A write of the value an absent key reads as removes the
entry, so that equal contents are equal data.
-/
namespace Sys2Proof.Machine

/-- The entry at a key, if the table lists one. -/
def mfind {α : Type} : Map α → Nat → Option α
  | [], _ => none
  | (k, v) :: r, a => if a = k then some v else mfind r a

/-- The value a table holds at a key; `d` is what an unlisted key reads as. -/
def mget {α : Type} (d : α) (m : Map α) (a : Nat) : α := (mfind m a).getD d

/-- Insert or replace one entry, keeping the keys strictly rising. -/
def mput {α : Type} : Map α → Nat → α → Map α
  | [], a, v => [(a, v)]
  | (k, w) :: r, a, v =>
    if a < k then (a, v) :: (k, w) :: r
    else if a = k then (a, v) :: r
    else (k, w) :: mput r a v

/-- Remove the entry at a key. -/
def mdel {α : Type} : Map α → Nat → Map α
  | [], _ => []
  | (k, w) :: r, a => if a = k then mdel r a else (k, w) :: mdel r a

/-- Write a value: the default removes the entry. -/
def mset {α : Type} [DecidableEq α] (d : α) (m : Map α) (a : Nat) (v : α) : Map α :=
  if v = d then mdel m a else mput m a v

/-- The canonical form: keys strictly rising. -/
def mrising {α : Type} : Map α → Bool
  | [] => true
  | [_] => true
  | (k, _) :: (k', v') :: r => decide (k < k') && mrising ((k', v') :: r)

/-- The canonical form of a table with default `d`: keys strictly rising, no entry equal to the default. -/
def mwf {α : Type} [DecidableEq α] (d : α) (m : Map α) : Bool :=
  mrising m && m.all (fun p => decide (p.2 ≠ d))

/-- Change the entry at a key. -/
def mmod {α : Type} [DecidableEq α] (d : α) (m : Map α) (a : Nat) (f : α → α) : Map α :=
  mset d m a (f (mget d m a))

/-! ### Memories -/

/-- The byte at an address; a byte nothing has written reads as zero. -/
def readByte (m : Memory) (a : Nat) : Byte := mget 0 m a

/-- Store one byte. -/
def writeByte (m : Memory) (a : Nat) (b : Byte) : Memory := mset 0 m a b

/-- The canonical form of a memory. -/
def Memory.wf (m : Memory) : Bool := mwf (0 : Byte) m

/-- The `n` bytes from address `a` upwards. -/
def readBytes (m : Memory) (a : Nat) : Nat → List Byte
  | 0 => []
  | n + 1 => readByte m a :: readBytes m (a + 1) n

/-- Store bytes from address `a` upwards. -/
def writeBytes (m : Memory) (a : Nat) : List Byte → Memory
  | [] => m
  | b :: bs => writeBytes (writeByte m a b) (a + 1) bs

/-- The little-endian value of a byte string (R12). -/
def leNat : List Byte → Nat
  | [] => 0
  | b :: bs => b.toNat + 256 * leNat bs

/-- The `n` bytes of a value, lowest byte first (R12). -/
def leBytes : Nat → Nat → List Byte
  | 0, _ => []
  | n + 1, v => BitVec.ofNat 8 v :: leBytes n (v / 256)

/-- The little-endian value of the `n` bytes at `a`. -/
def readNat (m : Memory) (a n : Nat) : Nat := leNat (readBytes m a n)

/-- Bits [hi:lo] of a value (R12: a range includes both ends). -/
def bitsOf (v hi lo : Nat) : Nat := (v / 2 ^ lo) % 2 ^ (hi + 1 - lo)

/-- The signed value of an `n`-bit two's-complement field. -/
def signedOf (n v : Nat) : Int := if v < 2 ^ (n - 1) then (v : Int) else (v : Int) - (2 : Int) ^ n

/-- A field of a byte string: `n` bytes at offset `o`, little-endian; bytes beyond the end read as zero. -/
def fieldAt (bs : List Byte) (o n : Nat) : Nat := leNat ((bs.drop o).take n)

/-- The lowest element of a list that satisfies a test, with its index. -/
def findIdx? {α : Type} (p : α → Bool) : List α → Nat → Option (Nat × α)
  | [], _ => none
  | x :: xs, i => if p x then some (i, x) else findIdx? p xs (i + 1)

/-- Replace the element at an index. -/
def setAt {α : Type} : List α → Nat → α → List α
  | [], _, _ => []
  | _ :: xs, 0, v => v :: xs
  | x :: xs, n + 1, v => x :: setAt xs n v

/-- A list without its repeats, first occurrences kept. -/
def nub {α : Type} [DecidableEq α] (l : List α) : List α :=
  l.foldl (fun acc x => if acc.contains x then acc else acc ++ [x]) []

/-- Addition that stays at the maximum of a `w`-bit counter (R437). -/
def satAdd (w a n : Nat) : Nat := min (a + n) (2 ^ w - 1)

end Sys2Proof.Machine
end

