-- ==== Sys2Proof/Machine/RegTable.lean ====
section
/-!
DEFINITION. The setup-register tables (R6 to R9, R32, R145, R192, R227, R266, R361, R362, R396, R416, R441, R442, R465):
each register with its offset, how many there are, its fields, their access and their reset values.  A reset the tables give as
Fused or Boot is 0 here: fuses and boot code write those fields.
-/
namespace Sys2Proof.Machine

/-- Access codes (R9); `cnt` is a counter field that a write of 0 clears (R437). -/
inductive FieldAccess where
  | ro | rw | w1c | wo | rwb | cnt
  deriving DecidableEq, Repr

/-- One field: its bits, access and reset value. -/
structure RegField where
  hi : Nat
  lo : Nat
  access : FieldAccess
  reset : Nat
  deriving DecidableEq, Repr

/-- One row of a register table: `count` registers `step` bytes apart; `perFn` registers are held for each function. -/
structure RegRow where
  name : String
  base : Nat
  step : Nat
  count : Nat
  perFn : Bool
  fields : List RegField
  deriving DecidableEq, Repr

/-- The IDENT block. -/
def regsIdent : List RegRow := [
  ⟨"IDENT_PART", 0x0, 8, 1, false,
    [⟨7, 0, .ro, 0xa⟩, ⟨23, 8, .ro, 2⟩, ⟨27, 24, .ro, 0⟩, ⟨31, 28, .ro, 0⟩, ⟨47, 32, .ro, 0⟩]⟩,
  ⟨"IDENT_SERIAL", 0x8, 8, 1, false,
    [⟨63, 0, .ro, 0⟩]⟩,
  ⟨"IDENT_SHAPE", 0x10, 8, 1, false,
    [⟨63, 0, .ro, 0⟩]⟩,
  ⟨"IDENT_RESOURCES", 0x18, 8, 1, false,
    [⟨12, 0, .ro, 0⟩, ⟨19, 13, .ro, 0⟩, ⟨31, 20, .ro, 0⟩, ⟨35, 32, .ro, 0⟩, ⟨59, 36, .ro, 0⟩]⟩,
  ⟨"IDENT_DEVICE", 0x20, 8, 1, false,
    [⟨15, 0, .rwb, 0⟩, ⟨39, 16, .ro, 0⟩, ⟨40, 40, .ro, 0⟩]⟩,
  ⟨"IDENT_PARTITION", 0x28, 8, 1, true,
    [⟨3, 0, .rwb, 0⟩, ⟨6, 4, .ro, 0⟩, ⟨15, 8, .ro, 0⟩]⟩,
  ⟨"IDENT_PART_SHAPE", 0x30, 8, 1, true,
    [⟨63, 0, .ro, 0⟩]⟩,
  ⟨"IDENT_VERSION", 0x38, 8, 1, false,
    [⟨7, 0, .rwb, 0⟩, ⟨15, 8, .rwb, 0⟩, ⟨23, 16, .rwb, 0⟩, ⟨31, 24, .rwb, 0⟩, ⟨39, 32, .rwb, 0⟩, ⟨55, 40, .rwb, 0⟩]⟩,
  ⟨"IDENT_CAPS", 0x40, 8, 1, false,
    [⟨0, 0, .ro, 1⟩, ⟨1, 1, .rwb, 0⟩]⟩,
  ⟨"IDENT_IDHASH", 0x80, 8, 8, false,
    [⟨63, 0, .rwb, 0⟩]⟩]

/-- The DBG block. -/
def regsDbg : List RegRow := [
  ⟨"DBG_CTRL", 0x70000, 8, 1, true,
    [⟨0, 0, .ro, 0⟩, ⟨1, 1, .wo, 0⟩, ⟨2, 2, .wo, 0⟩, ⟨3, 3, .wo, 0⟩, ⟨4, 4, .ro, 0⟩]⟩,
  ⟨"DBG_STATUS", 0x70008, 8, 1, true,
    [⟨3, 0, .ro, 0⟩, ⟨6, 4, .ro, 0⟩, ⟨12, 7, .ro, 0⟩, ⟨18, 13, .ro, 0⟩, ⟨42, 19, .ro, 0⟩, ⟨63, 63, .w1c, 0⟩]⟩,
  ⟨"DBG_BEAT", 0x70010, 8, 1, true,
    [⟨63, 0, .ro, 0⟩]⟩,
  ⟨"DBG_BRKn_CTL", 0x70100, 16, 4, true,
    [⟨1, 0, .rw, 0⟩, ⟨2, 2, .rw, 0⟩, ⟨8, 3, .rw, 0⟩, ⟨14, 9, .rw, 0⟩, ⟨20, 15, .rw, 0⟩, ⟨28, 21, .rw, 0⟩, ⟨36, 29, .rw, 0⟩]⟩,
  ⟨"DBG_BRKn_CNT", 0x70108, 16, 4, true,
    [⟨47, 0, .rw, 0⟩]⟩,
  ⟨"DBG_QBRKn_CTL", 0x70200, 16, 4, true,
    [⟨1, 0, .rw, 0⟩, ⟨7, 2, .rw, 0⟩, ⟨15, 8, .rw, 0⟩, ⟨23, 16, .rw, 0⟩]⟩,
  ⟨"DBG_QBRKn_CNT", 0x70208, 16, 4, true,
    [⟨47, 0, .rw, 0⟩]⟩,
  ⟨"DBG_PEEK_ADDR", 0x70300, 8, 1, true,
    [⟨5, 0, .rw, 0⟩, ⟨11, 6, .rw, 0⟩, ⟨15, 12, .rw, 0⟩, ⟨47, 16, .rw, 0⟩, ⟨62, 62, .ro, 0⟩, ⟨63, 63, .wo, 0⟩]⟩,
  ⟨"DBG_PEEK_DATA", 0x70308, 8, 1, true,
    [⟨63, 0, .ro, 0⟩]⟩]

/-- The BEAT block. -/
def regsBeat : List RegRow := [
  ⟨"BEAT_CFG", 0x30000, 8, 1, true,
    [⟨3, 0, .rw, 0xc⟩, ⟨16, 8, .rw, 0x20⟩, ⟨24, 24, .ro, 0⟩]⟩,
  ⟨"BEAT_STATUS", 0x30008, 8, 1, true,
    [⟨0, 0, .w1c, 0⟩, ⟨1, 1, .w1c, 0⟩, ⟨2, 2, .w1c, 0⟩, ⟨3, 3, .w1c, 0⟩, ⟨4, 4, .w1c, 0⟩, ⟨5, 5, .w1c, 0⟩, ⟨6, 6, .w1c, 0⟩, ⟨7, 7, .w1c, 0⟩]⟩,
  ⟨"BEAT_OP", 0x30010, 8, 1, false,
    [⟨1, 0, .ro, 0⟩, ⟨3, 2, .ro, 0⟩, ⟨4, 4, .ro, 0⟩, ⟨5, 5, .rwb, 0⟩]⟩,
  ⟨"BEAT_OP_FRAME", 0x30018, 8, 1, false,
    [⟨63, 0, .ro, 0⟩]⟩,
  ⟨"BEAT_TICK", 0x30020, 8, 1, false,
    [⟨63, 0, .ro, 0⟩]⟩,
  ⟨"BEAT_FRAME", 0x30028, 8, 1, false,
    [⟨63, 0, .ro, 0⟩]⟩,
  ⟨"BEAT_DFRAME", 0x30030, 8, 1, false,
    [⟨63, 0, .ro, 0⟩]⟩,
  ⟨"BEAT_POS", 0x30038, 8, 1, true,
    [⟨9, 0, .ro, 0⟩, ⟨19, 10, .ro, 0xa0⟩, ⟨29, 20, .ro, 0⟩, ⟨30, 30, .ro, 0⟩, ⟨31, 31, .ro, 0⟩]⟩,
  ⟨"BEAT_PLAN", 0x30040, 8, 1, true,
    [⟨63, 0, .ro, 0⟩]⟩,
  ⟨"BEAT_SLIPS", 0x30048, 8, 1, true,
    [⟨47, 0, .cnt, 0⟩, ⟨63, 63, .ro, 0⟩]⟩,
  ⟨"BEAT_REF", 0x30050, 8, 1, false,
    [⟨0, 0, .ro, 0⟩, ⟨1, 1, .ro, 0⟩, ⟨2, 2, .ro, 0⟩, ⟨47, 16, .cnt, 0⟩, ⟨63, 63, .ro, 0⟩]⟩,
  ⟨"BEAT_MARKSKEW", 0x30058, 8, 1, false,
    [⟨15, 0, .ro, 0⟩, ⟨20, 16, .ro, 0⟩, ⟨21, 21, .ro, 0⟩]⟩,
  ⟨"BEAT_RSTATn", 0x31000, 16, 64, false,
    [⟨11, 0, .ro, 0⟩, ⟨23, 12, .ro, 0⟩, ⟨35, 24, .cnt, 0⟩, ⟨36, 36, .ro, 0⟩]⟩,
  ⟨"BEAT_ROVRn", 0x31008, 16, 64, false,
    [⟨31, 0, .cnt, 0⟩, ⟨63, 63, .ro, 0⟩]⟩]

/-- The MEM block. -/
def regsMem : List RegRow := [
  ⟨"MEM_LAYOUT", 0x50000, 8, 1, false,
    [⟨0, 0, .rwb, 0⟩, ⟨4, 1, .ro, 0⟩, ⟨15, 5, .ro, 0⟩]⟩,
  ⟨"MEM_RANGEn", 0x50008, 8, 4, true,
    [⟨10, 0, .rwb, 0⟩, ⟨21, 11, .rwb, 0⟩]⟩,
  ⟨"MEM_PART", 0x50028, 8, 1, true,
    [⟨6, 0, .rwb, 0⟩, ⟨17, 8, .rwb, 0⟩, ⟨26, 18, .rwb, 0⟩]⟩,
  ⟨"MEM_STATUS", 0x50030, 8, 1, true,
    [⟨0, 0, .w1c, 0⟩, ⟨1, 1, .w1c, 0⟩, ⟨2, 2, .w1c, 0⟩, ⟨3, 3, .w1c, 0⟩, ⟨4, 4, .w1c, 0⟩, ⟨5, 5, .w1c, 0⟩, ⟨6, 6, .w1c, 0⟩, ⟨7, 7, .w1c, 0⟩, ⟨8, 8, .w1c, 0⟩]⟩,
  ⟨"MEM_VLATE", 0x50038, 8, 1, true,
    [⟨31, 0, .cnt, 0⟩, ⟨63, 63, .ro, 0⟩]⟩,
  ⟨"MEM_VTAG", 0x50040, 8, 1, true,
    [⟨31, 0, .cnt, 0⟩, ⟨63, 63, .ro, 0⟩]⟩,
  ⟨"MEM_RBINDn", 0x50400, 8, 64, false,
    [⟨19, 0, .ro, 0⟩, ⟨39, 20, .ro, 0⟩, ⟨49, 40, .ro, 0⟩, ⟨50, 50, .ro, 0⟩]⟩,
  ⟨"MEM_LCEn", 0x50600, 8, 64, false,
    [⟨31, 0, .cnt, 0⟩, ⟨44, 32, .ro, 0⟩, ⟨63, 63, .ro, 0⟩]⟩,
  ⟨"MEM_SCEn", 0x50800, 32, 12, false,
    [⟨47, 0, .cnt, 0⟩, ⟨63, 63, .ro, 0⟩]⟩,
  ⟨"MEM_SUEn", 0x50808, 32, 12, false,
    [⟨31, 0, .cnt, 0⟩, ⟨63, 63, .ro, 0⟩]⟩,
  ⟨"MEM_SRETn", 0x50810, 32, 12, false,
    [⟨12, 0, .ro, 0⟩, ⟨13, 13, .ro, 0⟩, ⟨14, 14, .ro, 0⟩]⟩,
  ⟨"MEM_VDECn_CFG", 0x50c00, 16, 16, false,
    [⟨13, 0, .rwb, 0⟩, ⟨28, 14, .rwb, 0⟩, ⟨31, 29, .rwb, 0⟩, ⟨32, 32, .rwb, 0⟩, ⟨33, 33, .rwb, 0⟩]⟩,
  ⟨"MEM_VDECn_TGT", 0x50c08, 16, 16, false,
    [⟨63, 12, .rwb, 0⟩]⟩]

/-- The LINK block. -/
def regsLink : List RegRow := [
  ⟨"LINK_STATUS", 0x40000, 8, 1, false,
    [⟨0, 0, .w1c, 0⟩, ⟨1, 1, .w1c, 0⟩, ⟨2, 2, .w1c, 0⟩, ⟨3, 3, .w1c, 0⟩, ⟨4, 4, .w1c, 0⟩, ⟨5, 5, .w1c, 0⟩, ⟨6, 6, .w1c, 0⟩]⟩,
  ⟨"LINK_EPOCH", 0x40008, 8, 1, false,
    [⟨31, 0, .ro, 0⟩]⟩,
  ⟨"LINK_DISC_EPOCH", 0x40010, 8, 1, false,
    [⟨47, 0, .cnt, 0⟩, ⟨63, 63, .ro, 0⟩]⟩,
  ⟨"LINK_DISC_UNBOUND", 0x40018, 8, 1, false,
    [⟨47, 0, .cnt, 0⟩, ⟨63, 63, .ro, 0⟩]⟩,
  ⟨"LINK_DISC_OTHER", 0x40020, 8, 1, false,
    [⟨47, 0, .cnt, 0⟩, ⟨63, 63, .ro, 0⟩]⟩,
  ⟨"LINK_FENCE", 0x40028, 8, 1, false,
    [⟨8, 0, .ro, 0⟩, ⟨17, 9, .ro, 0⟩]⟩,
  ⟨"LINK_PSTATn", 0x40400, 64, 24, false,
    [⟨3, 0, .ro, 0⟩, ⟨11, 4, .ro, 0⟩, ⟨15, 12, .ro, 0⟩, ⟨16, 16, .ro, 0⟩, ⟨17, 17, .rwb, 0⟩, ⟨25, 18, .ro, 0⟩, ⟨33, 26, .ro, 0⟩]⟩,
  ⟨"LINK_PNBRn", 0x40408, 64, 24, false,
    [⟨15, 0, .ro, 0⟩, ⟨20, 16, .ro, 0⟩, ⟨36, 21, .ro, 0⟩, ⟨60, 37, .ro, 0⟩, ⟨61, 61, .ro, 0⟩]⟩,
  ⟨"LINK_PLATn", 0x40410, 64, 24, false,
    [⟨31, 0, .ro, 0⟩, ⟨47, 32, .ro, 0⟩, ⟨48, 48, .ro, 0⟩]⟩,
  ⟨"LINK_PFRAMEn", 0x40418, 64, 24, false,
    [⟨63, 0, .ro, 0⟩]⟩,
  ⟨"LINK_PREPLn", 0x40420, 64, 24, false,
    [⟨47, 0, .cnt, 0⟩, ⟨63, 63, .ro, 0⟩]⟩,
  ⟨"LINK_PFECn", 0x40428, 64, 24, false,
    [⟨47, 0, .cnt, 0⟩, ⟨63, 63, .ro, 0⟩]⟩,
  ⟨"LINK_POPENn", 0x40430, 64, 24, false,
    [⟨15, 0, .rw, 0⟩]⟩,
  ⟨"LINK_PCTLn", 0x40438, 64, 24, false,
    [⟨0, 0, .wo, 0⟩]⟩,
  ⟨"LINK_ROUTEn", 0x41000, 8, 512, false,
    [⟨3, 0, .rw, 0⟩, ⟨4, 4, .rw, 0⟩]⟩,
  ⟨"LINK_BGRPn", 0x42000, 8, 4096, false,
    [⟨23, 0, .rw, 0⟩, ⟨24, 24, .rw, 0⟩, ⟨25, 25, .rw, 0⟩]⟩,
  ⟨"LINK_STREAMn", 0x4a000, 8, 2048, false,
    [⟨15, 0, .rw, 0⟩, ⟨16, 16, .rw, 0⟩]⟩]

/-- The QCFG block. -/
def regsQcfg : List RegRow := [
  ⟨"QCFG_STATUS", 0x10000, 8, 1, true,
    [⟨0, 0, .w1c, 0⟩, ⟨1, 1, .w1c, 0⟩, ⟨2, 2, .w1c, 0⟩, ⟨3, 3, .w1c, 0⟩, ⟨4, 4, .w1c, 0⟩]⟩,
  ⟨"QCFG_PORTn", 0x10008, 8, 2, true,
    [⟨0, 0, .ro, 0⟩, ⟨2, 1, .ro, 0⟩, ⟨6, 3, .ro, 0⟩, ⟨7, 7, .rwb, 0⟩, ⟨8, 8, .ro, 0⟩, ⟨9, 9, .ro, 0⟩]⟩,
  ⟨"QCFG_SEC", 0x10018, 8, 1, true,
    [⟨1, 0, .ro, 0⟩, ⟨5, 2, .rwb, 0⟩]⟩,
  ⟨"QCFG_QCTLn", 0x10400, 32, 64, true,
    [⟨0, 0, .rw, 0⟩, ⟨2, 1, .rw, 0⟩, ⟨7, 3, .rw, 6⟩, ⟨8, 8, .ro, 1⟩]⟩,
  ⟨"QCFG_QSQn", 0x10408, 32, 64, true,
    [⟨63, 12, .rw, 0⟩]⟩,
  ⟨"QCFG_QCQn", 0x10410, 32, 64, true,
    [⟨63, 12, .rw, 0⟩]⟩,
  ⟨"QCFG_QPOSn", 0x10418, 32, 64, true,
    [⟨15, 0, .ro, 0⟩, ⟨31, 16, .ro, 0⟩, ⟨47, 32, .ro, 0⟩, ⟨48, 48, .ro, 1⟩]⟩,
  ⟨"QCFG_FLAGn", 0x18000, 8, 4096, true,
    [⟨63, 0, .ro, 0⟩]⟩]

/-- The HATCH block. -/
def regsHatch : List RegRow := [
  ⟨"HATCH_STATUS", 0x20000, 8, 1, true,
    [⟨0, 0, .w1c, 0⟩, ⟨1, 1, .w1c, 0⟩, ⟨2, 2, .w1c, 0⟩, ⟨3, 3, .w1c, 0⟩]⟩,
  ⟨"HATCH_VIOL", 0x20008, 8, 1, true,
    [⟨31, 0, .cnt, 0⟩, ⟨63, 63, .ro, 0⟩]⟩,
  ⟨"HATCH_CFGn", 0x20100, 64, 16, true,
    [⟨0, 0, .rw, 0⟩, ⟨1, 1, .rw, 0⟩, ⟨3, 2, .rw, 0⟩, ⟨8, 4, .rw, 0xc⟩, ⟨9, 9, .ro, 0⟩, ⟨10, 10, .ro, 0⟩]⟩,
  ⟨"HATCH_BASEn", 0x20108, 64, 16, true,
    [⟨63, 12, .rw, 0⟩]⟩,
  ⟨"HATCH_FLAGSn", 0x20110, 64, 16, true,
    [⟨63, 6, .rw, 0⟩]⟩,
  ⟨"HATCH_SLOTSn", 0x20118, 64, 16, true,
    [⟨24, 0, .rw, 0⟩]⟩,
  ⟨"HATCH_POSn", 0x20120, 64, 16, true,
    [⟨23, 0, .ro, 0⟩]⟩]

/-- The CHARTER block. -/
def regsCharter : List RegRow := [
  ⟨"CHARTER_STATUS", 0x1000, 8, 1, false,
    [⟨3, 0, .ro, 0⟩, ⟨11, 4, .ro, 0⟩, ⟨12, 12, .ro, 0⟩, ⟨13, 13, .ro, 0⟩, ⟨14, 14, .ro, 0⟩, ⟨16, 15, .ro, 0⟩]⟩,
  ⟨"CHARTER_INFO", 0x1008, 8, 1, false,
    [⟨15, 0, .rwb, 0⟩, ⟨39, 16, .rwb, 0⟩, ⟨42, 40, .rwb, 0⟩, ⟨49, 43, .ro, 0⟩, ⟨56, 50, .rwb, 0⟩]⟩,
  ⟨"CHARTER_SEQ", 0x1010, 8, 1, false,
    [⟨63, 0, .rwb, 0⟩]⟩,
  ⟨"CHARTER_REPAIR", 0x1018, 8, 1, false,
    [⟨9, 0, .rwb, 0⟩, ⟨19, 10, .rwb, 0⟩, ⟨29, 20, .rwb, 0⟩, ⟨39, 30, .ro, 0⟩]⟩,
  ⟨"CHARTER_DIGESTk", 0x1040, 8, 8, false,
    [⟨63, 0, .rwb, 0⟩]⟩,
  ⟨"CHARTER_FWDIGESTk", 0x1080, 8, 8, false,
    [⟨63, 0, .rwb, 0⟩]⟩,
  ⟨"CHARTER_OWNERk", 0x10c0, 8, 8, false,
    [⟨63, 0, .ro, 0⟩]⟩,
  ⟨"CHARTER_BOOT_CTL", 0x1200, 8, 1, false,
    [⟨1, 0, .rw, 0⟩, ⟨2, 2, .rw, 0⟩, ⟨3, 3, .wo, 0⟩]⟩,
  ⟨"CHARTER_BOOT_BASE", 0x1208, 8, 1, false,
    [⟨63, 0, .rw, 0⟩]⟩,
  ⟨"CHARTER_BOOT_LEN", 0x1210, 8, 1, false,
    [⟨31, 0, .rw, 0⟩, ⟨47, 32, .rw, 0⟩]⟩,
  ⟨"CHARTER_BOOT_NODE", 0x1218, 8, 1, false,
    [⟨15, 0, .rw, 0⟩]⟩,
  ⟨"CHARTER_BOOT_OBJ0", 0x1220, 8, 1, false,
    [⟨63, 0, .rw, 0⟩]⟩,
  ⟨"CHARTER_BOOT_OBJ1", 0x1228, 8, 1, false,
    [⟨63, 0, .rw, 0⟩]⟩]

/-- The DETM block. -/
def regsDetm : List RegRow := [
  ⟨"DETM_CTRL", 0xa0000, 8, 1, true,
    [⟨0, 0, .rw, 0⟩]⟩,
  ⟨"DETM_STATUS", 0xa0008, 8, 1, true,
    [⟨0, 0, .w1c, 0⟩, ⟨1, 1, .w1c, 0⟩, ⟨2, 2, .w1c, 0⟩]⟩,
  ⟨"DETM_AUDIT", 0xa0010, 8, 1, true,
    [⟨2, 0, .ro, 0⟩]⟩,
  ⟨"DETM_DIGESTS", 0xa0018, 8, 1, true,
    [⟨47, 0, .cnt, 0⟩, ⟨63, 63, .ro, 0⟩]⟩,
  ⟨"DETM_DBLOCKS", 0xa0020, 8, 1, true,
    [⟨47, 0, .cnt, 0⟩, ⟨63, 63, .ro, 0⟩]⟩,
  ⟨"DETM_CKPTS", 0xa0028, 8, 1, true,
    [⟨47, 0, .cnt, 0⟩, ⟨63, 63, .ro, 0⟩]⟩]

/-- The EVT block. -/
def regsEvt : List RegRow := [
  ⟨"EVT_STATUS", 0x60000, 8, 1, true,
    [⟨0, 0, .w1c, 0⟩, ⟨1, 1, .w1c, 0⟩, ⟨2, 2, .w1c, 0⟩, ⟨3, 3, .w1c, 0⟩, ⟨4, 4, .w1c, 0⟩]⟩,
  ⟨"EVT_CFG", 0x60008, 8, 1, true,
    [⟨0, 0, .rw, 0⟩, ⟨5, 1, .rw, 6⟩, ⟨6, 6, .rw, 0⟩]⟩,
  ⟨"EVT_RING", 0x60010, 8, 1, true,
    [⟨63, 12, .rw, 0⟩]⟩,
  ⟨"EVT_POS", 0x60018, 8, 1, true,
    [⟨15, 0, .rw, 0⟩, ⟨31, 16, .ro, 0⟩, ⟨32, 32, .ro, 1⟩]⟩,
  ⟨"EVT_DROPPED", 0x60020, 8, 1, true,
    [⟨31, 0, .cnt, 0⟩, ⟨63, 63, .ro, 0⟩]⟩,
  ⟨"EVT_DOMAIN", 0x60028, 8, 1, true,
    [⟨0, 0, .ro, 0⟩, ⟨8, 1, .ro, 0⟩, ⟨24, 9, .ro, 0⟩, ⟨47, 32, .ro, 0⟩]⟩,
  ⟨"EVT_LAST_COMMIT", 0x60030, 8, 1, true,
    [⟨63, 0, .ro, 0⟩]⟩,
  ⟨"EVT_FAIL_STEP", 0x60038, 8, 1, true,
    [⟨63, 0, .ro, 0⟩]⟩,
  ⟨"EVT_FENCED", 0x60040, 8, 1, false,
    [⟨63, 0, .ro, 0⟩]⟩,
  ⟨"EVT_REPAIR_COUNT", 0x60048, 8, 1, false,
    [⟨15, 0, .ro, 0⟩]⟩,
  ⟨"EVT_REPAIRn", 0x61000, 8, 256, false,
    [⟨63, 0, .ro, 0⟩]⟩]

/-- The CNT block. -/
def regsCnt : List RegRow := [
  ⟨"CNT_ABSENT_CMD", 0x80000, 8, 1, true,
    [⟨31, 0, .cnt, 0⟩, ⟨63, 63, .ro, 0⟩]⟩,
  ⟨"CNT_ABANDONED", 0x80010, 8, 1, true,
    [⟨31, 0, .cnt, 0⟩, ⟨63, 63, .ro, 0⟩]⟩,
  ⟨"CNT_RECOVERIES", 0x80018, 8, 1, true,
    [⟨31, 0, .cnt, 0⟩, ⟨63, 63, .ro, 0⟩]⟩,
  ⟨"CNT_REPLAYS", 0x80008, 8, 1, true,
    [⟨47, 0, .cnt, 0⟩, ⟨63, 63, .ro, 0⟩]⟩,
  ⟨"CNT_UNAVAIL", 0x80020, 8, 1, false,
    [⟨31, 0, .cnt, 0⟩, ⟨63, 63, .ro, 0⟩]⟩,
  ⟨"CNT_PENDING_AGAINn", 0x80100, 8, 12, true,
    [⟨31, 0, .cnt, 0⟩, ⟨63, 63, .ro, 0⟩]⟩,
  ⟨"CNT_WAITn", 0x80200, 8, 8, true,
    [⟨47, 0, .cnt, 0⟩, ⟨63, 63, .ro, 0⟩]⟩,
  ⟨"CNT_CSUMn", 0x81000, 32, 64, false,
    [⟨31, 0, .cnt, 0⟩, ⟨63, 63, .ro, 0⟩]⟩,
  ⟨"CNT_ACCCEn", 0x81008, 32, 64, false,
    [⟨31, 0, .cnt, 0⟩, ⟨63, 63, .ro, 0⟩]⟩,
  ⟨"CNT_UNCHKn", 0x81010, 32, 64, false,
    [⟨47, 0, .cnt, 0⟩, ⟨63, 63, .ro, 0⟩]⟩,
  ⟨"CNT_RANGEn", 0x81018, 32, 64, false,
    [⟨47, 0, .cnt, 0⟩, ⟨63, 63, .ro, 0⟩]⟩]

/-- The PWR block. -/
def regsPwr : List RegRow := [
  ⟨"PWR_STATUS", 0x90000, 8, 1, true,
    [⟨0, 0, .w1c, 0⟩, ⟨1, 1, .w1c, 0⟩, ⟨2, 2, .w1c, 0⟩, ⟨3, 3, .w1c, 0⟩, ⟨4, 4, .w1c, 0⟩, ⟨5, 5, .w1c, 0⟩, ⟨6, 6, .w1c, 0⟩, ⟨7, 7, .w1c, 0⟩, ⟨8, 8, .w1c, 0⟩]⟩,
  ⟨"PWR_CAP", 0x90008, 8, 1, false,
    [⟨11, 0, .rw, 0xbb8⟩]⟩,
  ⟨"PWR_ALERT", 0x90010, 8, 1, false,
    [⟨8, 0, .rw, 0xff⟩]⟩,
  ⟨"PWR_INPUT", 0x90018, 8, 1, false,
    [⟨15, 0, .ro, 0⟩, ⟨31, 16, .ro, 0⟩, ⟨47, 32, .ro, 0⟩]⟩,
  ⟨"PWR_PEAK", 0x90020, 8, 1, false,
    [⟨15, 0, .cnt, 0⟩]⟩,
  ⟨"PWR_ENERGY", 0x90028, 8, 1, false,
    [⟨47, 0, .cnt, 0⟩, ⟨63, 63, .ro, 0⟩]⟩,
  ⟨"PWR_TEMP", 0x90030, 8, 1, false,
    [⟨7, 0, .ro, 0⟩, ⟨14, 8, .ro, 0⟩, ⟨23, 16, .ro, 0⟩, ⟨31, 24, .ro, 0⟩, ⟨39, 32, .ro, 0⟩]⟩,
  ⟨"PWR_HISTn", 0x90100, 8, 16, false,
    [⟨3, 0, .ro, 0⟩, ⟨6, 4, .ro, 0⟩, ⟨7, 7, .ro, 0⟩, ⟨8, 8, .ro, 0⟩, ⟨9, 9, .ro, 0⟩]⟩]

/-- Every register row. -/
def regRows : List RegRow :=
  regsIdent ++ regsDbg ++ regsBeat ++ regsMem ++ regsLink ++ regsQcfg ++ regsHatch ++ regsCharter ++ regsDetm ++ regsEvt ++ regsCnt ++ regsPwr

/-- The row of the register at an aligned offset, if a table lists one (R8). -/
def regRow (off : Nat) : Option RegRow :=
  regRows.find? (fun r => decide (r.base ≤ off) && decide (off < r.base + r.step * r.count) && (off - r.base) % r.step == 0)

/-- The stored value of a register at reset, from its fields. -/
def RegRow.reset (r : RegRow) : W64 :=
  r.fields.foldl (fun v f => v ||| BitVec.ofNat 64 (f.reset * 2 ^ f.lo)) 0

/-- The reset value of the register at an offset; 0 where none is listed. -/
def regReset (off : Nat) : W64 := match regRow off with | some r => r.reset | none => 0

end Sys2Proof.Machine
end

