-- ==== Sys2Proof/Machine/BootState.lean ====
section
/-!
DEFINITION. What the fuses, the boot core, the SPDM responders and the power stage hold (11_boot_and_trust,
14_module_power_and_contacts), and the answers that the management port and the mailboxes give.
-/
namespace Sys2Proof.Machine

/-- One used fuse slot of a repair or a bank-row retirement (R383): its entry in the layout of R382; a spoilt slot is never valid. -/
structure RepairSlot where
  entry : W64
  valid : Bool
  deriving DecidableEq, Repr

/-- The fuses, the module's only non-volatile state (log entry 3 for a module fresh from manufacture). -/
structure Fuses where
  /-- 1 A, 2 B, 3 C -/
  grade : Nat := 1
  stepping : Nat := 0
  serial : Nat := 0
  shape : BitVec 64 := 0xFFFFFFFFFFFFFFFF#64
  /-- the identity public key: 512 bytes of modulus, 4 of exponent (R386); no interface reads the private key -/
  identity : List Byte := []
  /-- the anti-rollback counter's 64 fuses (R374) -/
  rollback : W64 := 0
  /-- the 512 owner hash fuses, as the big-endian value of the hash's bytes, and ENROLLED (R378) -/
  owner : BitVec 512 := 0
  enrolled : Bool := false
  slots : List RepairSlot := []
  /-- the power history: 16 slots of 8 fuses (R448) -/
  history : Map (BitVec 8) := []
  deriving DecidableEq, Repr

/-- A secure session of an SPDM responder (R389): its keys' draw, and whether FINISH has come. -/
structure SpdmSession where
  keys : Nat
  finished : Bool
  deriving DecidableEq, Repr

/-- One SPDM responder's connection: how far negotiation has come (1 version, 2 capabilities, 3 algorithms). -/
structure Spdm where
  step : Nat := 0
  session : Option SpdmSession := none
  deriving DecidableEq, Repr

/-- The boot (R363 to R385); what CHARTER shows stands in its registers. -/
structure BootState where
  fuses : Fuses := {}
  /-- from the trigger until the boot is complete -/
  active : Bool := false
  /-- the boot ROM has started in this boot -/
  rom : Bool := false
  /-- 0 cold, 1 warm by PERST#, 2 warm by WARM_BOOT -/
  cause : Nat := 0
  /-- the tick of the trigger -/
  trigger : Nat := 0
  /-- the partition functions are presented -/
  presented : Bool := false
  /-- PERST# is asserted, since this tick -/
  perst : Option Nat := none
  /-- the tick at which the bundle fetch in progress started -/
  fetching : Option Nat := none
  /-- the store port that the boot ROM has trained for the fetch (R369) -/
  link : Option Nat := none
  /-- the port of the boot function: 0 CA, 1 CB (R366) -/
  port : Nat := 0
  /-- the hub's volatile firmware memory (R368) -/
  firmware : List Byte := []
  /-- the certificate chain of slot 0 (R387, R389) -/
  chain : List Byte := []
  /-- the SPDM responders: by function, and 8 for the management port -/
  spdm : Map Spdm := []
  deriving DecidableEq, Repr

/-- The power stage (R443 to R452). -/
structure PowerState where
  /-- every rail is in regulation: PWRGD -/
  good : Bool := false
  /-- the rails that are up, in the order in which they rise, and whether the module is coming up (R451, R452) -/
  rails : List Nat := []
  rising : Bool := false
  /-- the input is reversed, so that nothing is powered, the PSC included (R447) -/
  reversed : Bool := false
  /-- recorded causes of the shutdown that holds the module off (R447, R449), and whether the input was lost -/
  latched : List Nat := []
  lost : Bool := false
  /-- slots of the power history marked new (R448) -/
  fresh : BitVec 16 := 0
  /-- this power-up's POWER_HISTORY events are still to be raised -/
  tell : Bool := false
  /-- the PWR_STATUS bits of the detectors that have fired and are not yet armed again: 0 and 1 input, 4 junction, 5 and 6 coolant
  (R447, R455) -/
  fired : List Nat := []
  /-- the input current is held at its limit (R444) -/
  limited : Bool := false
  /-- the ticks of the last thermal and the last power request, while a sensor stays at 105 °C or the excess lasts (R455, R456) -/
  thermalAt : Option Nat := none
  capAt : Option Nat := none
  deriving DecidableEq, Repr

/-- The algorithms of R389. -/
inductive SpdmAlg where
  | rsassa4096Sha512 | sha512 | secp384r1 | aes256gcm
  deriving DecidableEq, Repr

/-- An answer of the management port or of a DOE mailbox.  The manual gives its contents; the published specifications give its
bytes (log entry 43). -/
inductive Reply where
  | ok
  | busy
  | error
  /-- CHARTER_STATUS and the boot source registers (R365) -/
  | bootRegs (status : W64) (sources : List W64)
  | version (major minor : Nat)
  | capabilities (certificates challenge measurements keyExchange secureSessions preShared mutualAuth : Bool)
  | algorithms (signature measurementHash keyExchange aead : SpdmAlg)
  | digests (slot0 : List Byte)
  | certificate (portion : List Byte) (remaining : Nat)
  | challengeAuth (chainDigest : List Byte) (signature : Nat)
  /-- measurement blocks by index; a signature where the request asked for one -/
  | measurements (blocks : List (Nat × List Byte)) (signature : Option Nat)
  | keyExchange (publicKey : List Byte) (signature : Nat)
  | finished
  | ended
  /-- the TDISP state the function is in -/
  | tdisp (state : Nat)
  | ide
  /-- a PLDM reading (R462) -/
  | reading (value : Nat)
  deriving DecidableEq, Repr

end Sys2Proof.Machine
end

