-- ==== Sys2Proof/Machine/Fp.lean ====
section
/-!
DEFINITION. Element formats, rounding and FP32 arithmetic (03_number_formats_and_accumulation, R63, R66, R79 to R102).

Arithmetic is exact on integers scaled by a power of two; narrowing happens once, explicitly, at the end.
-/
namespace Sys2Proof.Machine

/-- The format codes of R112. -/
inductive Fmt where
  | e4m3 | e5m2 | int8 | e2m3 | e3m2 | e2m1 | int4 | bf16 | fp32 | int32
  deriving DecidableEq, Repr

/-- The format a four-bit code names (R112); a code not listed names none. -/
def Fmt.ofCode : Nat → Option Fmt
  | 0 => some .e4m3 | 1 => some .e5m2 | 2 => some .int8 | 3 => some .e2m3 | 4 => some .e3m2
  | 5 => some .e2m1 | 6 => some .int4 | 7 => some .bf16 | 8 => some .fp32 | 9 => some .int32
  | _ => none

/-- The rounding modes of R97. -/
inductive RMode where
  | rne | rtz | rdn | rup | rna
  deriving DecidableEq, Repr

/-- The mode a three-bit field names; a reserved value rounds as RNE (R97). -/
def RMode.ofCode : Nat → RMode
  | 1 => .rtz | 2 => .rdn | 3 => .rup | 4 => .rna | _ => .rne

/-- A number read exactly: a NaN, an infinity, or ± m × 2^e. -/
inductive Num where
  | nan
  | inf (neg : Bool)
  | fin (neg : Bool) (m : Nat) (e : Int)
  deriving DecidableEq, Repr

/-- The layout of a floating-point format (R79). -/
structure FloatFmt where
  ebits : Nat
  mbits : Nat
  bias : Nat
  /-- the code of the largest finite magnitude -/
  maxCode : Nat
  /-- the code of +∞ in formats that have one -/
  infCode : Option Nat
  /-- the canonical NaN code in formats that have one -/
  nanCode : Option Nat
  deriving DecidableEq, Repr

/-- The floating-point layouts of R79; the integer formats have none. -/
def Fmt.layout : Fmt → Option FloatFmt
  | .e4m3 => some ⟨4, 3, 7, 0x7E, none, some 0x7F⟩
  | .e5m2 => some ⟨5, 2, 15, 0x7B, some 0x7C, some 0x7E⟩
  | .e2m3 => some ⟨2, 3, 1, 0x1F, none, none⟩
  | .e3m2 => some ⟨3, 2, 3, 0x1F, none, none⟩
  | .e2m1 => some ⟨2, 1, 1, 0x7, none, none⟩
  | .bf16 => some ⟨8, 7, 127, 0x7F7F, some 0x7F80, some 0x7FC0⟩
  | .fp32 => some ⟨8, 23, 127, 0x7F7FFFFF, some 0x7F800000, some 0x7FC00000⟩
  | .int8 | .int4 | .int32 => none

/-- The width of an element in bits (R79). -/
def Fmt.bits : Fmt → Nat
  | .e4m3 | .e5m2 | .int8 => 8
  | .e2m3 | .e3m2 => 6
  | .e2m1 | .int4 => 4
  | .bf16 => 16
  | .fp32 | .int32 => 32

/-- The layout of binary32. -/
def fp32Layout : FloatFmt := ⟨8, 23, 127, 0x7F7FFFFF, some 0x7F800000, some 0x7FC00000⟩

/-- Read a floating-point code (R79, R80): subnormals keep their value, −0 keeps its sign. -/
def FloatFmt.decode (f : FloatFmt) (code : Nat) : Num :=
  let w := f.ebits + f.mbits
  let neg := code / 2 ^ w % 2 = 1
  let mag := code % 2 ^ w
  let ex := mag / 2 ^ f.mbits
  let fr := mag % 2 ^ f.mbits
  if some mag = f.infCode then .inf neg
  else if mag > f.maxCode then .nan
  else if ex = 0 then .fin neg fr (1 - (f.bias : Int) - f.mbits)
  else .fin neg (2 ^ f.mbits + fr) ((ex : Int) - f.bias - f.mbits)

/-- The value an element code of any format has. -/
def Fmt.decode (f : Fmt) (code : Nat) : Num :=
  match f.layout with
  | some l => l.decode code
  | none =>
    let v := signedOf f.bits (code % 2 ^ f.bits)
    .fin (v < 0) v.natAbs 0

/-- Whether a truncated magnitude moves away from zero, given the discarded part against one half (R97). -/
def roundsUp (mode : RMode) (neg odd : Bool) (vsHalf : Ordering) (exact : Bool) : Bool :=
  match mode with
  | .rne => vsHalf == .gt || (vsHalf == .eq && odd)
  | .rtz => false
  | .rdn => neg && !exact
  | .rup => !neg && !exact
  | .rna => vsHalf == .gt || vsHalf == .eq

/-- Divide a magnitude by 2^k and round to an integer (R97). -/
def shiftRound (mode : RMode) (neg : Bool) (m k : Nat) : Nat :=
  let q := m / 2 ^ k
  let r := m % 2 ^ k
  if roundsUp mode neg (q % 2 = 1) (compare (2 * r) (2 ^ k)) (r = 0) then q + 1 else q

/-- The number of significant bits of a magnitude. -/
def bitLen (m : Nat) : Nat := if m = 0 then 0 else Nat.log2 m + 1

/-- The code written for an overflowed result (R98). -/
def FloatFmt.overflow (f : FloatFmt) (mode : RMode) (sat neg : Bool) : Nat :=
  let s := if neg then 2 ^ (f.ebits + f.mbits) else 0
  let big := match f.infCode with
    | some i => s + i
    | none => f.nanCode.getD (s + f.maxCode)
  if sat then s + f.maxCode
  else match mode with
    | .rne | .rna => big
    | .rtz => s + f.maxCode
    | .rup => if neg then s + f.maxCode else big
    | .rdn => if neg then big else s + f.maxCode

/-- Round ± m × 2^e once to a floating-point format (R98).  An exact zero is +0. -/
def FloatFmt.round (f : FloatFmt) (mode : RMode) (sat neg : Bool) (m : Nat) (e : Int) : Nat :=
  if m = 0 then 0 else
  let s := if neg then 2 ^ (f.ebits + f.mbits) else 0
  let top : Int := (bitLen m : Int) - 1 + e
  let emin : Int := 1 - (f.bias : Int)
  let q : Int := max top emin - f.mbits
  let n := if q ≤ e then m * 2 ^ (e - q).toNat else shiftRound mode neg m (q - e).toNat
  let field : Int := q + f.mbits + f.bias
  let code := (field - 1).toNat * 2 ^ f.mbits + n
  if code > f.maxCode then f.overflow mode sat neg else s + code

/-- Round ± m × 2^e to an integer and saturate it to `w` bits (R99). -/
def roundInt (w : Nat) (mode : RMode) (neg : Bool) (m : Nat) (e : Int) : Nat :=
  let mag := if 0 ≤ e then m * 2 ^ e.toNat else shiftRound mode neg m (-e).toNat
  if neg then (if mag > 2 ^ (w - 1) then 2 ^ (w - 1) else (2 ^ w - mag) % 2 ^ w)
  else (if mag ≥ 2 ^ (w - 1) then 2 ^ (w - 1) - 1 else mag)

/-- Write a number in a format (R98 to R100): the output of the array and of the vector conversions. -/
def Fmt.encode (f : Fmt) (mode : RMode) (sat : Bool) (x : Num) : Nat :=
  match f.layout, x with
  | some l, .nan => l.nanCode.getD 0
  | some l, .inf neg =>
    let s := if neg then 2 ^ (l.ebits + l.mbits) else 0
    match l.infCode with
    | some i => s + i
    | none => s + (if sat then l.maxCode else l.nanCode.getD l.maxCode)
  | some l, .fin neg m e => l.round mode sat neg m e
  | none, .nan => 0
  | none, .inf neg => if neg then 2 ^ (f.bits - 1) else 2 ^ (f.bits - 1) - 1
  | none, .fin neg m e => roundInt f.bits mode neg m e

/-! ### FP32 arithmetic (R63) -/

/-- An FP32 lane. -/
abbrev F32 := BitVec 32

/-- The canonical NaN of R63. -/
def nan32 : F32 := 0x7FC00000#32

def F32.num (a : F32) : Num := fp32Layout.decode a.toNat

def F32.isNaN (a : F32) : Bool := match a.num with | .nan => true | _ => false

def F32.isInf (a : F32) : Bool := match a.num with | .inf _ => true | _ => false

/-- NaN or infinite. -/
def F32.special (a : F32) : Bool := a.isNaN || a.isInf

/-- The signed integer a finite number is at scale 2^e (e no larger than its own exponent). -/
def Num.atScale (x : Num) (e : Int) : Int :=
  match x with
  | .fin neg m e' => (if neg then -1 else 1) * ((m * 2 ^ (e' - e).toNat : Nat) : Int)
  | _ => 0

/-- Round a signed integer at scale 2^e to FP32, to nearest-even; `zneg` is the sign of a zero result. -/
def f32OfInt (v : Int) (e : Int) (zneg : Bool) : F32 :=
  if v = 0 then (if zneg then 0x80000000#32 else 0#32)
  else
    -- a non-zero value that rounds to zero keeps its sign
    BitVec.ofNat 32 (fp32Layout.round .rne false (v < 0) v.natAbs e)

def Num.add (x y : Num) : F32 :=
  match x, y with
  | .nan, _ => nan32
  | _, .nan => nan32
  | .inf a, .inf b => if a = b then BitVec.ofNat 32 (if a then 0xFF800000 else 0x7F800000) else nan32
  | .inf a, .fin .. => BitVec.ofNat 32 (if a then 0xFF800000 else 0x7F800000)
  | .fin .., .inf b => BitVec.ofNat 32 (if b then 0xFF800000 else 0x7F800000)
  | .fin na ma ea, .fin nb mb eb =>
    let e := min ea eb
    f32OfInt (Num.atScale (.fin na ma ea) e + Num.atScale (.fin nb mb eb) e) e (na && nb && ma = 0 && mb = 0)

/-- The exact product of two numbers; an infinity times zero is NaN. -/
def Num.mul (x y : Num) : Num :=
  match x, y with
  | .nan, _ => .nan
  | _, .nan => .nan
  | .inf a, .inf b => .inf (a != b)
  | .inf a, .fin b m _ => if m = 0 then .nan else .inf (a != b)
  | .fin a m _, .inf b => if m = 0 then .nan else .inf (a != b)
  | .fin a m e, .fin b m' e' => .fin (a != b) (m * m') (e + e')

/-- Round a number to FP32 to nearest-even, a zero keeping its sign.  DESIGN CHOICE (log entry 66): the sign of a zero BF16 product or sum,
which R80 and R95 do not state, is the one IEEE 754 gives: a product's is the exclusive or of the signs. -/
def Num.toF32 (x : Num) : F32 :=
  match x with
  | .nan => nan32
  | .inf a => BitVec.ofNat 32 (if a then 0xFF800000 else 0x7F800000)
  | .fin neg m e => f32OfInt (if neg then -(m : Int) else m) e neg

def fadd (a b : F32) : F32 := Num.add a.num b.num

/-- Negate: the sign bit inverts; a NaN becomes the canonical NaN (R63). -/
def fneg (a : F32) : F32 := if a.isNaN then nan32 else a ^^^ 0x80000000#32

def fabs (a : F32) : F32 := if a.isNaN then nan32 else a &&& 0x7FFFFFFF#32

def Num.neg : Num → Num
  | .nan => .nan
  | .inf a => .inf (!a)
  | .fin a m e => .fin (!a) m e

def fsub (a b : F32) : F32 := Num.add a.num b.num.neg

def fmul (a b : F32) : F32 := (Num.mul a.num b.num).toF32

/-- a × b + c with one rounding. -/
def ffma (a b c : F32) : F32 := Num.add (Num.mul a.num b.num) c.num

/-- The order key of a non-NaN value: −0 below +0 (R63). -/
def F32.key (a : F32) : Int :=
  if a.msb then -((a &&& 0x7FFFFFFF#32).toNat : Int) - 1 else (a.toNat : Int)

/-- FP32 minimum with canonical NaN and −0 below +0 (R63). -/
def fmin (a b : F32) : F32 :=
  if a.isNaN || b.isNaN then nan32 else if b.key < a.key then b else a

/-- FP32 maximum (R63). -/
def fmax (a b : F32) : F32 :=
  if a.isNaN || b.isNaN then nan32 else if a.key < b.key then b else a

/-- IEEE equality: −0 equals +0, a NaN equals nothing. -/
def feq (a b : F32) : Bool :=
  !a.isNaN && !b.isNaN && (a == b || (a &&& 0x7FFFFFFF#32 == 0 && b &&& 0x7FFFFFFF#32 == 0))

/-- IEEE less-than. -/
def flt (a b : F32) : Bool :=
  !a.isNaN && !b.isNaN && !feq a b && decide (a.key < b.key)

/-- Sum in the fixed pairwise order (R52, R65, R95): (0+1), (2+3), …, then the pairs of those sums.  `d` levels. -/
def pairSum : Nat → List F32 → F32
  | 0, l => l.headD 0
  | d + 1, l => pairSum d (pairs l)
where
  pairs : List F32 → List F32
    | a :: b :: r => fadd a b :: pairs r
    | l => l

/-- −∞. -/
def ninf32 : F32 := 0xFF800000#32

/-! ### Philox-4×32-10 (R66; the constants of the published definition) -/

/-- One Philox round on a counter under a key. -/
def philoxRound (c : Nat × Nat × Nat × Nat) (k0 k1 : Nat) : Nat × Nat × Nat × Nat :=
  let p0 := 0xD2511F53 * c.1
  let p1 := 0xCD9E8D57 * c.2.2.1
  ((p1 / 2 ^ 32) ^^^ c.2.1 ^^^ k0, p1 % 2 ^ 32, (p0 / 2 ^ 32) ^^^ c.2.2.2 ^^^ k1, p0 % 2 ^ 32)

/-- `n` rounds, the key words advancing between rounds. -/
def philoxRounds : Nat → (Nat × Nat × Nat × Nat) → Nat → Nat → (Nat × Nat × Nat × Nat)
  | 0, c, _, _ => c
  | n + 1, c, k0, k1 =>
    philoxRounds n (philoxRound c k0 k1) ((k0 + 0x9E3779B9) % 2 ^ 32) ((k1 + 0xBB67AE85) % 2 ^ 32)

/-- The four output words of one Philox-4×32-10 block. -/
def philox (key lo hi : W64) : List (BitVec 32) :=
  let c := philoxRounds 10
    (lo.toNat % 2 ^ 32, lo.toNat / 2 ^ 32, hi.toNat % 2 ^ 32, hi.toNat / 2 ^ 32)
    (key.toNat % 2 ^ 32) (key.toNat / 2 ^ 32)
  [BitVec.ofNat 32 c.1, BitVec.ofNat 32 c.2.1, BitVec.ofNat 32 c.2.2.1, BitVec.ofNat 32 c.2.2.2]

/-! ### Packed elements (R81) -/

/-- Element `i` of a packed byte string of a format: sub-byte elements lowest-numbered in the lowest bits. -/
def Fmt.elem (f : Fmt) (v i : Nat) : Nat := v / 2 ^ (f.bits * i) % 2 ^ f.bits

/-- Pack elements, element 0 lowest. -/
def Fmt.pack (f : Fmt) : List Nat → Nat
  | [] => 0
  | x :: xs => x % 2 ^ f.bits + 2 ^ f.bits * Fmt.pack f xs

/-! ### MX quantisation (R102) -/

/-- e_max of R102. -/
def Fmt.emax : Fmt → Int
  | .e3m2 => 4
  | _ => 2

/-- ⌊log2⌋ of a finite non-zero number. -/
def Num.floorLog2 : Num → Int
  | .fin _ m e => (bitLen m : Int) - 1 + e
  | _ => 0

/-- One block of 32 FP32 lanes to element codes and a scale byte (R102). -/
def mxQuantise (f : Fmt) (lanes : List F32) : List Nat × Nat :=
  if lanes.any F32.special then (lanes.map (fun _ => 0), 0xFF)
  else
    let amax := lanes.foldl (fun m x => if (x &&& 0x7FFFFFFF#32).toNat > m then (x &&& 0x7FFFFFFF#32).toNat else m) 0
    if amax = 0 then (lanes.map (fun _ => 0), 0x7F)
    else
      let sc : Int := max 0 (min 254 (Num.floorLog2 (fp32Layout.decode amax) - f.emax + 127))
      let elem := fun (x : F32) =>
        match x.num with
        | .fin neg m e => f.encode .rne true (.fin neg m (e - (sc - 127)))
        | _ => 0
      (lanes.map elem, sc.toNat)

end Sys2Proof.Machine
end

