-- ==== Sys2Proof/Machine/TileState.lean ====
section
/-!
DEFINITION. What one tile holds (R34, R36, R40, R43, R55, R67, R74, R108, R120, R136, R140), as plain data.
-/
namespace Sys2Proof.Machine

/-- The five issue slots of a bundle (R103). -/
inductive Slot where
  | m | v | l | x | c
  deriving DecidableEq, Repr

/-- One accumulator of an entry (R86, R40): the 112-bit sum with its side state, or an FP32 value in the low bits. -/
structure Lane where
  x : BitVec 112 := 0
  /-- 0 finite, 1 +∞, 2 −∞, 3 NaN (R90) -/
  special : BitVec 2 := 0
  inexact : Bool := false
  range : Bool := false
  deriving DecidableEq, Repr

/-- One accumulation-store entry (R40, R41, R87): its class and anchor tag and its 32 lanes. -/
structure AccEntry where
  fp32 : Bool := false
  anchor : BitVec 9 := 0
  lanes : Map Lane := []
  deriving DecidableEq, Repr

/-- Where an issued operation's result goes. -/
inductive Target where
  | sreg (i : Nat) (v : W64)
  /-- lanes of a vector register selected by a mask (R106: each lane keeps the last write that covered it) -/
  | vreg (i : Nat) (lanes : BitVec 64) (v : BitVec 2048)
  | pred (i : Nat) (b : Bool)
  | mcfg (i : Nat) (v : W64)
  /-- an ACHK consumes from its counter (R124, R131) -/
  | acSub (i : Nat) (n : BitVec 32)
  | bind (i : Nat) (v : W64)
  | pin (v : W64)
  deriving DecidableEq, Repr

/-- A result on its way to its register: the cycle it is written at and its place in the order of R106. -/
structure Pending where
  due : Nat
  rank : Nat
  target : Target
  deriving DecidableEq, Repr

/-- What a larder read is for. -/
inductive ReadUse where
  /-- a write: nothing is delivered -/
  | none
  /-- a write of ASAVE: each exact partial takes the tile's poison state as it is written (R91) -/
  | save
  /-- LDS: 8 bytes to a scalar register at the cycle named -/
  | sreg (i due : Nat)
  /-- LDV: to a vector register at the cycle named; the lanes from `lo` on, and which lanes this access writes -/
  | vreg (i due lo : Nat) (lanes : BitVec 64)
  /-- ALOAD or AADD: one half of an entry's partials; the store is written at the cycle named -/
  | acc (entry : Nat) (add : Bool) (half due : Nat) (flips : List (Nat × BitVec 120))
  /-- an array fill: bytes for the shadow registers at an offset -/
  | fill (offset : Nat)
  /-- a weight vector of a job, or half of one in the BF16 group -/
  | weight (job n : Nat) (half : Nat)
  /-- a chunk of an outgoing transfer -/
  | send (id : Nat)
  deriving DecidableEq, Repr

/-- One larder access the tile has scheduled (R68 to R70). -/
structure Access where
  due : Nat
  /-- the client's priority of R69 -/
  prio : Nat
  /-- the issue order of the operation -/
  order : Nat
  addr : Nat
  len : Nat
  write : Bool
  data : List Byte
  /-- words that a fault has changed and the bits changed in each, the 8 check bits above the 64 data bits (R72) -/
  flips : List (Nat × BitVec 72)
  use : ReadUse
  deriving DecidableEq, Repr

/-- A store-entry read or write the L slot has scheduled (R43). -/
structure AccMove where
  due : Nat
  order : Nat
  entry : Nat
  /-- where ASAVE writes the entry's partials, or the partials an ALOAD (`some false`) or AADD (`some true`) brings -/
  save : Option Nat
  add : Bool
  partials : List Byte
  /-- lanes whose stored bits a fault has changed, the 8 check bits above the 112 data bits (R44) -/
  flips : List (Nat × BitVec 120)
  deriving DecidableEq, Repr

/-- One vector's results on their way through the array (R45). -/
structure RowOut where
  n : Nat
  lanes : List Lane
  /-- the entry's tag when the results are FP32 (R40) -/
  fp32 : Bool
  deriving DecidableEq, Repr

/-- One matrix instruction in the array (R35, R45, R115). -/
structure Job where
  id : Nat
  issue : Nat
  /-- the stream start cycle S0 -/
  s0 : Nat
  cfg : W64
  fillAddr : Nat
  strmAddr : Nat
  dst : Nat
  n : Nat
  base : Nat
  started : Bool
  /-- the stationary block the stream runs against -/
  block : Memory
  /-- weight vectors read and not yet compared -/
  vecs : List (Nat × List Byte)
  nextCmp : Nat
  outs : List RowOut
  /-- words of the fill and of the stream that a fault has changed (R72) -/
  flips : List (Nat × BitVec 72)
  deriving DecidableEq, Repr

/-- Where an outgoing transfer goes (R119, R122, R118). -/
inductive SendKind where
  | mesh (tile addr ctr : Nat)
  | hub (engine channel : Nat)
  /-- a crate with its 64-bit header (R122) -/
  | crate (header : W64)
  /-- a cellar write of a plan stream: its address and arrival counter -/
  | cellar (addr ctr : Nat)
  deriving DecidableEq, Repr

/-- A transfer the crossing port is sending or has sent. -/
structure Transfer where
  id : Nat
  kind : SendKind
  len : Nat
  data : List Byte
  poison : Bool
  deriving DecidableEq, Repr

/-- A cellar-to-larder plan stream in progress (R118, R212). -/
structure InStream where
  id : Nat
  lar : Nat
  cel : Nat
  len : Nat
  ctr : Nat
  deriving DecidableEq, Repr

/-- What the last chunk of a received transfer does beside its larder write (R121, R123, R212). -/
inductive Arrival where
  /-- more of the transfer follows -/
  | more
  /-- an arrival counter counts -/
  | count (ctr : Nat)
  /-- a plan stream ends: its arrival counter counts, and a CRD releases its buffer regions (R136) -/
  | stream (id ctr : Nat)
  /-- a crate of a stream: the binding in force when it is written gives its place and its arrival counter (R119, R123) -/
  | crate (stream seq : Nat)
  deriving DecidableEq, Repr

/-- One cycle's received bytes, up to 128: they stand in a landing or in the router until a work cycle of the receiving tile's
region writes them through the crossing port (R73, R164, R171). -/
structure Chunk where
  addr : Nat
  data : List Byte
  poison : Bool
  done : Arrival
  deriving DecidableEq, Repr

/-- An entry of a landing: 128 B that a neighbouring region has written for a tile and the landing's own region has still to take (R171). -/
structure LandEntry where
  tile : Nat
  chunk : Chunk
  deriving DecidableEq, Repr

/-- One instruction-cache line (R74, R75). -/
structure Line where
  valid : Bool := false
  filling : Bool := false
  /-- the plan bundle address of its first bundle -/
  tag : Nat := 0
  bundles : Map (BitVec 256) := []
  deriving DecidableEq, Repr

/-- An active loop (R126): its counter, the bundle of its LOOP and its end address. -/
structure Loop where
  lc : Nat
  head : Nat
  last : Nat
  deriving DecidableEq, Repr

/-- What holds a tile's issue (R129, R76). -/
inductive Hold where
  | free
  /-- a DLY: issue resumes at the cycle named -/
  | delay (until_ : Nat)
  /-- a BEND: until the next plan beat -/
  | beat
  /-- an ALIGN: until the plan beat named -/
  | align (beat : Nat)
  /-- a HALT, a code overrun or a tile with no program -/
  | halted
  /-- a timed lookup missed: no bundle issues from the address (R76) -/
  | missed
  deriving DecidableEq, Repr

/-- The effect a bundle's control slot has when the bundle ends. -/
inductive Control where
  | none
  | loop (lc body : Nat) (count : BitVec 32)
  | delay (d : Nat)
  | bend
  | align (beat : Nat)
  | halt
  | jump (addr : Nat)
  deriving DecidableEq, Repr

/-- A buffer-region count held by an operation in progress (R136). -/
structure Score where
  region : Nat
  write : Bool
  /-- the operation that holds it and the cycle it is released at; a stream's is released when the stream ends -/
  due : Option Nat
  stream : Nat
  deriving DecidableEq, Repr

/-- What a tile's events tell the device: breaks and counts. -/
inductive TileEvent where
  | timingBreak
  | linkLate
  /-- a corrected larder error in a bank (R72) -/
  | larderCorrected (bank row : Nat)
  | larderUncorrected (bank row : Nat)
  /-- a corrected accumulation-store error (R44) -/
  | accCorrected
  | mismatch
  | unchecked
  | accRange
  | stepMark (mark : Nat)
  /-- a crate that matches no valid binding is discarded (R123, R245) -/
  | unbound
  deriving DecidableEq, Repr

/-- One tile. -/
structure Tile where
  /-- S0–S31 (R108) -/
  s : Map W64
  /-- V0–V31, 64 lanes of 32 bits -/
  v : Map (BitVec 2048)
  /-- P1–P7; P0 always reads 1 -/
  p : BitVec 8
  /-- LC0–LC3 -/
  lc : Map (BitVec 32)
  /-- MC0–MC3 -/
  mc : Map W64
  /-- AC0–AC15 -/
  ac : Map (BitVec 32)
  /-- bindings 0–63 (R123) -/
  bind : Map W64
  /-- PIN, one bit per line -/
  pin : W64
  /-- the miss pointer (R134) -/
  missPtr : Nat
  /-- the accumulation store (R40) -/
  acc : Map AccEntry
  /-- the shadow and active stationary registers (R36), as the bytes filled into them -/
  shadow : Memory
  active : Memory
  larder : Memory
  lines : Map Line
  poison : Bool
  /-- the cause mask (R421) -/
  cause : BitVec 7
  /-- the tile's program: whether a plan gave it one, its length and cellar base (R103, R149) -/
  code : Option (Nat × Nat)
  elreri : Bool
  /-- the address of the next bundle to issue -/
  pc : Nat
  /-- the slots of the bundle in progress that have issued -/
  issued : List Slot
  /-- the bundle in progress, as its lookup found it: its five slots issue in one cycle (R105) -/
  cur : BitVec 256
  control : Control
  /-- the bundle issued last: none at the start (R76), else whether it was untimed and whether it held an ALIGN -/
  last : Option (Bool × Bool)
  /-- issue of the bundle in progress was stalled by a cache miss (R76) -/
  lateFill : Bool
  /-- the bundle in progress is an untimed ACHK that issues without effect (R131) -/
  achkVoid : Bool
  /-- cycles the bundle in progress has stalled on its ACHK (R131) -/
  stalled : Nat
  loops : List Loop
  hold : Hold
  /-- the count of bundles issued since plan start (R140) -/
  count : BitVec 48
  /-- the tile's work cycle, counted from plan beat 0 and without the cycles a larder conflict stalled (R70) -/
  cyc : Nat
  /-- cycles that larder conflicts have stalled the tile -/
  lag : Nat
  results : List Pending
  accesses : List Access
  accMoves : List AccMove
  /-- array writes to the store in the cycle in progress (R43) -/
  accWrites : List (Nat × AccEntry)
  jobs : List Job
  sends : List Transfer
  streams : List InStream
  /-- the first cycle in which the crossing port is free again (R120) -/
  portFree : Nat
  /-- received bytes that wait for the receiver's work cycles, oldest first: one chunk a cycle (R69, R73, R171) -/
  recv : List Chunk
  scores : List Score
  /-- the marks of the STEPMs issued whose step-end mark has not come, oldest first (R130, R135) -/
  stepm : List Nat
  /-- issue order numbers given out -/
  seq : Nat
  /-- events not yet reported to the device -/
  events : List TileEvent
  deriving DecidableEq, Repr

/-- A tile as boot leaves it (R78, R108): everything zero, no program. -/
def Tile.reset : Tile where
  s := []
  v := []
  p := 0
  lc := []
  mc := []
  ac := []
  bind := []
  pin := 0
  missPtr := 0
  acc := []
  shadow := []
  active := []
  larder := []
  lines := []
  poison := false
  cause := 0
  code := none
  elreri := false
  pc := 0
  issued := []
  cur := 0
  control := .none
  last := none
  lateFill := false
  achkVoid := false
  stalled := 0
  loops := []
  hold := .halted
  count := 0
  cyc := 0
  lag := 0
  results := []
  accesses := []
  accMoves := []
  accWrites := []
  jobs := []
  sends := []
  streams := []
  portFree := 0
  recv := []
  scores := []
  stepm := []
  seq := 0
  events := []

end Sys2Proof.Machine
end

