-- ==== Sys2Proof/Machine/ClockState.lean ====
section
/-!
DEFINITION. What the clocks, frames, beats, regions and slip units hold (05_clocks_beats_and_stretch), and the debug halt
of a halt scope (R139 to R143).
-/
namespace Sys2Proof.Machine

/-- The timing breaks of R180. -/
inductive BreakKind where
  | timingBreak | linkLate | vaultLate | planDrift
  deriving DecidableEq, Repr

/-- What a halted scope reports (R141): the cause, the unit, the tile and the bundle. -/
structure HaltInfo where
  cause : Nat
  unit : Nat
  tile : Nat
  bundle : Nat
  /-- when it matched: the tick, and the work cycle of a bundle's tile -/
  tick : Nat := 0
  cycle : Nat := 0
  deriving DecidableEq, Repr

/-- One slip unit: a partition, or the device in domain mode (R173). -/
structure SlipUnit where
  /-- the beat exponent and slack in force (R160, R163) -/
  k : Nat := 12
  slack : Nat := 32
  /-- values that wait for the next frame start (R191) -/
  pend : Option (Nat × Nat) := none
  /-- a start descriptor has executed whose plan has not begun (R191) -/
  startHeld : Bool := false
  debt : Nat := 0
  /-- plan beats started since the unit last came to run a plan; the number in progress is one less -/
  started : Nat := 0
  /-- the number of the plan beat in progress, or of the last one, of the unit's lowest-numbered plan: what BEAT_PLAN shows (R162, R192) -/
  planBeat : Nat := 0
  /-- a plan beat is in progress -/
  inBeat : Bool := false
  /-- the plan beat in progress has gone on past a slot boundary (R174) -/
  slipped : Bool := false
  /-- breaks raised whose effect waits for a slot boundary (R180) -/
  breaks : List BreakKind := []
  /-- issue is to stop at the next slot boundary without a break: a step did not commit (R422), a fault message or a
  control-core fault came -/
  stopAsked : Bool := false
  /-- issue has stopped -/
  stopped : Bool := false
  /-- the slot boundary that comes next: its slot number -/
  nextSlot : Nat := 0
  landing : Bool := false
  /-- a halt that waits for the end of the beat (R141) -/
  haltPend : Option HaltInfo := none
  halted : Bool := false
  /-- a RESUME or a STEP that waits for the next beat that is not a landing beat; true for a STEP (R142) -/
  resume : Option Bool := none
  /-- a peek whose word is due (R144) -/
  peek : Bool := false
  /-- the slips of the last second, as ticks (R420) -/
  slipTimes : List Nat := []
  deriving DecidableEq, Repr

/-- One region (R163 to R170, R208, R425). -/
structure Region where
  /-- the context whose plan the region is bound to -/
  bound : Option Nat := none
  /-- T, the stretch taken since the plan beat started, in ticks -/
  stretch : Nat := 0
  /-- the part of T that was sympathetic -/
  symp : Nat := 0
  /-- the work cycles of the plan beat are complete and the region is gated -/
  done : Bool := false
  fenced : Bool := false
  /-- the array spare rows and the spare tile row in use, and the repair slots taken (R58, R59) -/
  spareRows : List Nat := []
  spareTileRow : Bool := false
  repairSlots : Nat := 0
  deriving DecidableEq, Repr

/-- A change of the operating point that waits for its frame (R182). -/
structure OpPending where
  frame : Nat
  op : Nat
  /-- the function and queue of the descriptor, and its tag -/
  fn : Nat
  queue : Nat
  tag : Nat
  deriving DecidableEq, Repr

/-- The root clock, the frames and the reference (R155 to R189). -/
structure Clock where
  /-- BEAT_TICK -/
  tick : Nat := 0
  /-- BEAT_FRAME -/
  frame : Nat := 0
  /-- the tick at which the frame in progress started -/
  frameStart : Nat := 0
  op : Nat := 0
  opPend : Option OpPending := none
  /-- the partition whose function may submit OP_CHANGE (R182): the charter names it -/
  opOwner : Nat := 0
  /-- FRAME_OFFSET of the domain (R159) -/
  offset : Nat := 0
  locked : Bool := false
  markAcq : Bool := false
  holdover : Bool := false
  /-- suppressed edges seen exactly a frame apart since the mark was last lost (R158) -/
  marksSeen : Nat := 0
  /-- the position of the last displaced mark in the frame, how many came in a row, and the frame of the last (R158, R188) -/
  displaced : Option (Nat × Nat × Nat) := none
  units : Map SlipUnit := []
  regions : Map Region := []
  /-- the landings of the region-crossing mesh links, one for each link and direction, by tile entered × 4 + side entered from (0 west,
  1 east, 2 low y, 3 high y), each with up to 16 entries of 128 B, oldest first (R171) -/
  landings : Map (List LandEntry) := []
  deriving DecidableEq, Repr

end Sys2Proof.Machine
end

