-- ==== Sys2Proof/Machine/CtxState.lean ====
section
/-!
DEFINITION. What contexts, loads, adapters, requests and the sampling unit hold (08_contexts_and_weights,
09_generation_engines).
-/
namespace Sys2Proof.Machine

/-- A descriptor that has been fetched: its function and queue, its 64 bytes, its place in fetch order, and the tick its
execution started at (R329, R330). -/
structure DescRef where
  fn : Nat
  queue : Nat
  /-- its index in the submission ring -/
  index : Nat
  bytes : List Byte
  order : Nat
  start : Nat
  /-- the frame number in force when it was fetched (R182) -/
  frame : Nat
  deriving DecidableEq, Repr

/-- The context states of R272. -/
inductive CtxPhase where
  | free | creating | empty | ready | running | destroying
  deriving DecidableEq, Repr

/-- The context parameter block (R268). -/
structure CtxParams where
  extentBytes : Nat := 0
  planBase : Nat := 0
  planBytes : Nat := 0
  shelfBase : Nat := 0
  shelfCount : Nat := 0
  shelfPos : Nat := 1
  shelfRec : Nat := 64
  mapEntries : Nat := 0
  mapBase : Nat := 0
  adapterBase : Nat := 0
  adapterSlots : Nat := 0
  adapterSlotBytes : Nat := 0
  seed : W64 := 0
  audited : Bool := false
  pubHash : List Byte := []
  adapterPubHash : List Byte := []
  deriving DecidableEq, Repr

/-- One tile of a loaded plan, as its tile entry and set-up data give it (R149, R151).  The initialisation records and bindings stand in
the plan area; a loaded plan holds none of them here. -/
structure TileSetup where
  x : Nat
  y : Nat
  preload : Nat
  entry : Nat
  codeBase : Nat
  codeBundles : Nat
  pin : W64
  inits : List (Nat × List Byte)
  binds : List W64
  deriving DecidableEq, Repr

/-- One engine of a loaded plan (R295). -/
structure Engine where
  decode : Bool
  sample : Bool
  spec : Bool
  result : Bool
  handover : Option Nat
  boundary : Nat
  slots : Nat
  slotTokens : Nat
  groups : Nat
  maxPos : Nat
  vocab : Nat
  inRec : Nat
  regions : BitVec 64
  deriving DecidableEq, Repr

/-- One entry of the link assumption table (R150). -/
structure LinkAssume where
  ticks : Nat
  window : Nat
  fold : Bool
  deriving DecidableEq, Repr

/-- A loaded plan: what PLAN_LOAD keeps of the image (R147 to R152). -/
structure Plan where
  elreri : Bool
  slipTol : Bool
  det : Bool
  beatK : Nat
  slack : Nat
  stepBeats : Nat
  domainSize : Nat
  variant : Nat
  used : BitVec 64
  tiles : List TileSetup
  engines : List Engine
  links : List LinkAssume
  digest : List Byte
  /-- context address of the step area (R301) -/
  stepArea : Nat
  /-- where the set-up data stands in the plan area, and its bytes (R151) -/
  setupBase : Nat
  setupBytes : Nat
  deriving DecidableEq, Repr

/-- One load-table entry (R278). -/
structure LoadEntry where
  shard : Nat
  vaultDest : Bool
  srcKind : Nat
  altKind : Nat
  root : Bool
  dest : Nat
  src : Nat
  object : List Byte
  alt : Nat
  bytes : Nat
  digest : List Byte
  deriving DecidableEq, Repr

/-- A weight set (R272, R279). -/
structure WeightSet where
  gen : Nat
  manBase : Nat
  digest : List Byte
  shardCount : Nat
  entries : List LoadEntry
  listBase : Nat
  listCount : Nat
  /-- SHARD_BYTES of every shard of its manifest, in shard order (R276, R286) -/
  lens : List Nat
  deriving DecidableEq, Repr

/-- One shard of a load in progress (R280). -/
structure ShardState where
  entry : LoadEntry
  /-- the attempt in progress or next, from 1 -/
  attempt : Nat
  fetching : Bool
  /-- a failed attempt failed on its digest -/
  digestFailed : Bool
  verified : Bool
  deriving DecidableEq, Repr

/-- What a load in progress is for (R279, R284, R285, R292). -/
inductive LoadKind where
  | weights
  | stage
  | stageCommit
  | direct
  | adapter (id slot : Nat) (replace : Bool)
  /-- a broadcast plan image on its way (R284) -/
  | plan
  deriving DecidableEq, Repr

/-- A load in progress. -/
structure Load where
  desc : DescRef
  ctx : Nat
  kind : LoadKind
  tag : Nat
  group : Nat
  /-- the storage nodes of store sources and store alternates -/
  dev : Nat
  altDev : Nat
  /-- in ms, from the tick at which the descriptor executed -/
  timeout : Nat
  since : Nat
  set : WeightSet
  /-- the staging list that a weight load read from the host, copied once every shard has verified (R279, R283) -/
  list : List Byte
  /-- the entries that the load fetches, with their destinations -/
  shards : List ShardState
  firstDeadline : Bool
  /-- the changed shards of a swap, and where they are staged -/
  changed : List LoadEntry
  stageBase : Nat
  deriving DecidableEq, Repr

/-- A set staged for a commit, or being committed: the changed shards stand at `stageBase` in ascending shard index (R285 to R287). -/
structure Staged where
  set : WeightSet
  changed : List LoadEntry
  stageBase : Nat
  deriving DecidableEq, Repr

/-- A swap commit that waits for its barrier or runs (R287). -/
structure Swap where
  desc : DescRef
  /-- the set that the commit installs; none while its staging runs -/
  next : Option Staged
  barrierStep : Nat
  voidSteps : Nat
  direct : Bool
  /-- the void steps run since the barrier's end mark; none before it -/
  voids : Option Nat
  /-- the next generation is assigned and the copies or fetches run -/
  started : Bool
  gen : Nat
  copied : Bool
  deriving DecidableEq, Repr

/-- The adapter slot states of R291. -/
inductive AdapterPhase where
  | free | loading | current | retained
  deriving DecidableEq, Repr

/-- One adapter slot. -/
structure AdapterSlot where
  phase : AdapterPhase := .free
  id : Nat := 0
  gen : Nat := 0
  /-- a generation that has verified and becomes current at the next boundary, with the descriptor that loaded it -/
  verified : Option DescRef := none
  digest : List Byte := []
  deriving DecidableEq, Repr

/-- A descriptor that waits for a free adapter slot (R292). -/
structure AdapterWait where
  desc : DescRef
  ctx : Nat
  id : Nat
  replace : Bool
  timeout : Nat
  manifest : List Byte
  table : List Byte
  deriving DecidableEq, Repr

/-- The request states of R308; `retired` is a request that has retired and is live until its records are placed. -/
inductive ReqPhase where
  | queued | active | waiting | idle | cancelling | retired
  deriving DecidableEq, Repr

/-- A fed input that waits (R312), with its REQ_FEED, which a restored one no longer has (R410). -/
structure Feed where
  desc : Option DescRef
  data : Bool
  dest : Nat
  positions : Nat
  final : Bool
  deriving DecidableEq, Repr

/-- An input that a request has consumed since it entered its first engine: where it stands, bytes a position, the position it starts at,
its positions, and whether it came from a feed. -/
structure InputRun where
  addr : Nat
  rec_ : Nat
  start : Nat
  len : Nat
  fed : Bool
  deriving DecidableEq, Repr

/-- A pending candidate tree (R317): tokens and parents of nodes 1 to N. -/
structure Tree where
  /-- its REQ_FEED, which a restored one no longer has -/
  desc : Option DescRef
  basePos : Nat
  nodes : List (Nat × Nat)
  final : Bool
  deriving DecidableEq, Repr

/-- A draw record (R313): drawn tokens, accepted nodes, EMPTY and POISONED. -/
structure DrawRec where
  tokens : List Nat := []
  accepted : List Nat := []
  empty : Bool := false
  poisoned : Bool := false
  /-- the walk has ended: no further draw is due -/
  ended : Bool := false
  /-- NaN logits met in the step's draws (R314) -/
  nans : Nat := 0
  deriving DecidableEq, Repr

/-- One request (R303, R308 to R312). -/
structure Req where
  id : Nat
  /-- the REQ_ADMIT; a restored request has none (R410) -/
  desc : Option DescRef
  phase : ReqPhase
  /-- order of admission, of waiting for handover, or of waking from IDLE -/
  order : Nat
  woken : Bool
  first : Nat
  engine : Nat
  slot : Option Nat
  row : Option Nat
  reserved : Nat
  /-- the slot is live in the step in progress -/
  live : Bool
  open_ : Bool
  approxP : Bool
  spec : Bool
  adapter : Option Nat
  /-- the pinned adapter slot and generation, until the request retires (R290) -/
  pin : Option (Nat × Nat)
  /-- the manifest digest of the adapter it was pinned to -/
  pinDig : List Byte := []
  hatch : Option Nat
  temp : BitVec 32
  topK : Nat
  topP : Nat
  minP : Nat
  penWindow : Nat
  repPen : BitVec 32
  freqPen : BitVec 32
  stops : List Nat
  masked : Bool
  recBase : Nat
  inputBase : Nat
  outBase : Nat
  outBytes : Nat
  inputPos : Nat
  maxPos : Nat
  maxNew : Nat
  iterations : Nat
  /-- committed positions -/
  pos : Nat
  /-- the input the request works on: where it stands, bytes a position, the position it starts at, its positions, how many
  are covered in the pass, and whether it came from a feed -/
  curAddr : Nat
  curRec : Nat
  passStart : Nat
  passLen : Nat
  passDone : Nat
  feeding : Bool
  /-- the feed it came from, while that is to be completed, and its FINAL -/
  curFeed : Option DescRef := none
  curFinal : Bool := false
  /-- the inputs consumed since the request entered its first engine, those that a HANDOVER target has still to run again, and whether
  the input in work is one of them (R307) -/
  visit : List InputRun := []
  rerun : List InputRun := []
  again : Bool := false
  iter : Nat
  firstStep : Bool
  /-- the token the next root step starts from -/
  root : Option Nat
  /-- output tokens, newest first -/
  output : List Nat
  generated : Nat
  feeds : List Feed
  /-- a FINAL feed has been consumed -/
  final : Bool
  tree : Option Tree
  /-- the tree the step in progress uses -/
  inTree : Option Tree
  /-- positions of the step in progress: COUNT, and whether it ends the final pass -/
  count : Nat
  last : Bool
  draw : DrawRec
  /-- a cancel has executed; the output stop point has passed (R320) -/
  cancelled : Bool
  stopped : Bool
  /-- cancels that wait, with their AT_STEP, and the effect step once it is fixed -/
  cancels : List (DescRef × Nat)
  effect : Option Nat
  /-- the status and result value to complete with -/
  finish : Option (Nat × Nat)
  /-- NaN logits counted in the request record -/
  nans : Nat
  /-- the input digest of an audited context, and the one in force at the step's start (R413) -/
  audit : List Byte
  auditIn : List Byte
  deriving DecidableEq, Repr

/-- A request descriptor that applies at a step boundary: AT_STEP in domain mode, the next boundary otherwise (R312). -/
inductive Deferred where
  | admission (req : Nat)
  | feed (req : Nat) (f : Feed) (bytes : List Byte)
  | tree (req : Nat) (t : Tree) (bytes : List Byte)
  deriving DecidableEq, Repr

/-- The step in progress of a running plan (R297 to R299, R422 to R424). -/
structure StepState where
  /-- the step base (R298) -/
  base : Nat := 0
  /-- the slip unit's plan-beat count at the start or the replay -/
  beat0 : Nat := 0
  /-- a start or replay that waits: its set-up is to be made and plan beat 0 to begin, at the frame named or at the next
  slot boundary -/
  starting : Option (Option Nat) := none
  /-- the step in progress has failed, with the cause of R429 -/
  failed : Option Nat := none
  /-- the end mark of the step before the one in progress has passed and its commit work is due; with the cause that keeps
  it from committing, if a break was pending -/
  endDue : Option (Option Nat) := none
  /-- a step that did not commit: its number and cause, waiting for issue to stop -/
  lost : Option (Nat × Nat) := none
  /-- attempts of the step in progress that have failed -/
  attempts : Nat := 0
  /-- the plan beat and tick of the last end mark -/
  endBeat : Nat := 0
  endTick : Nat := 0
  void_ : Bool := false
  /-- the steps that have met an early substitution and are not yet recorded (R225, R302) -/
  subst : List Nat := []
  /-- the step is a repeat step (R433) -/
  repeat_ : Bool := false
  /-- a plan start that waits for OK at its first tick: the descriptor of a DOMAIN_START or DOMAIN_RESUME -/
  desc : Option DescRef := none
  /-- the status that requests complete with when the plan stops for a failed direct swap (R289) -/
  stopNow : Option Nat := none
  deriving DecidableEq, Repr

/-- The logits that have arrived for one slot and node (R313). -/
structure Logits where
  vals : Map (BitVec 32) := []
  poison : Bool := false
  deriving DecidableEq, Repr

/-- A checkpoint of a context (R406, R407). -/
structure Ckpt where
  desc : DescRef
  /-- the step whose end mark takes the snapshot; none for the next -/
  step : Option Nat
  voidSteps : Nat
  areas : List (Nat × Nat)
  /-- the void steps run since the snapshot; none before it -/
  voids : Option Nat
  snap : Nat
  /-- what the barrier waits for is complete -/
  released : Bool
  /-- the step the barrier ended before -/
  resume : Nat
  /-- the snapshot has been captured: the pages but for the state record -/
  captured : Bool
  image : List Byte
  /-- the requests live at the snapshot, by REQ_ID and REQ_ADMIT, the pages that the state record takes, and the draws of the key and the
  identifier -/
  live : List (Nat × Option DescRef) := []
  recPages : Nat := 0
  keyDraw : Nat := 0
  idDraw : Nat := 0
  /-- what has been captured holds poisoned data, so nothing of it is released (R57, R202; log entry 77): the spans of the image that do, and
  whether anything does -/
  spans : List (Nat × Nat) := []
  poison : Bool := false
  /-- the captured pages have been written -/
  written : Bool := false
  /-- the state record, as it stands at the resume step -/
  record : List Byte
  deriving DecidableEq, Repr

/-- One context (R267 to R275). -/
structure Ctx where
  phase : CtxPhase := .free
  params : CtxParams := {}
  /-- cellar address of the extent -/
  base : Nat := 0
  keySlot : Nat := 0
  plan : Option Plan := none
  weights : Option WeightSet := none
  lastGen : Nat := 0
  steps : Nat := 0
  step : StepState := {}
  /-- L, the last committed step (R431) -/
  lastCommit : Nat := 0
  staged : Option Staged := none
  swap : Option Swap := none
  adapters : Map AdapterSlot := []
  /-- REQ_CANCELs whose request has retired at the effect point, with the effect step whose end mark they complete at (R312) -/
  cancelEnds : List (DescRef × Nat) := []
  /-- adapter IDs removed at the next boundary, with their descriptors (R293) -/
  removals : List (Nat × DescRef) := []
  /-- adapter IDs removed and not yet free -/
  removed : List Nat := []
  reqs : Map Req := []
  deferred : List (Nat × Deferred) := []
  /-- shelves by state: absent FREE_CLEAN, false FREE_DIRTY, true MAPPED (R218) -/
  shelves : Map Bool := []
  /-- admission order numbers given out -/
  seq : Nat := 0
  creating : Option DescRef := none
  destroying : Option DescRef := none
  /-- the plan stops at this step's end mark (R275, R345) -/
  stopAt : Option Nat := none
  ckpt : Option Ckpt := none
  /-- RESTOREs that wait for their data (R409) -/
  restores : List DescRef := []
  /-- weight, plan and adapter loads in progress, and adapter descriptors that wait for a slot -/
  loads : List Load := []
  waits : List AdapterWait := []
  /-- logits by engine, slot and node -/
  logits : Map Logits := []
  /-- retained slot tables, tree records and shelf map of the last committed step, as it read them and as its commit left
  them (R431, R433) -/
  retained : Memory := []
  after : Memory := []
  /-- the cellar holds the retained tables: a repeat step has begun and has not reached its end mark (R433) -/
  rolled : Bool := false
  deriving DecidableEq, Repr

end Sys2Proof.Machine
end

