-- ==== Sys2Proof/Machine/FaultState.lean ====
section
/-!
DEFINITION. What fault counting, repair records, domain recovery and the output to the host hold
(13_faults_and_recovery, 10_host_interface).
-/
namespace Sys2Proof.Machine

/-- What the device has written to the world outside it, newest last: host memory, interrupts, the fabric's links and
the management port.  Host memory itself is not the device's state. -/
inductive Output where
  /-- an event record: function, ring index, 32 bytes (R440) -/
  | eventRec (fn index : Nat) (bytes : List Byte)
  /-- a completion entry: function, queue, ring index, 16 or more bytes (R332) -/
  | completion (fn queue index : Nat) (bytes : List Byte)
  /-- an MSI-X vector (R326) -/
  | interrupt (fn vector : Nat)
  /-- bytes written to host memory -/
  | hostWrite (addr : Nat) (bytes : List Byte)
  /-- bytes written to the vault: CXL port and HDM address (R220, R221) -/
  | vaultWrite (port addr : Nat) (bytes : List Byte)
  /-- a hatch slot handed to the host: function, hatch, slot, contents -/
  | hatchSlot (fn hatch slot : Nat) (bytes : List Byte)
  /-- a hatch flag written: function, hatch, slot, value (R348) -/
  | hatchFlag (fn hatch slot value : Nat)
  /-- a codeword sent on a port -/
  | codeword (port : Nat) (bytes : List Byte)
  /-- an answer of a function's DOE mailbox, or of the management port -/
  | response (fn : Option Nat) (r : Reply)
  deriving DecidableEq, Repr

/-- Window histories, pending repairs and the fault messages seen (R419, R420, R426, R429). -/
structure FaultState where
  /-- times of checksum-mismatch attempts, by tile -/
  mismatches : Map (List Nat) := []
  /-- tiles that mismatched in the attempt in progress -/
  mismatchedNow : List Nat := []
  /-- times of corrected accumulation-store errors, by tile -/
  accErrs : Map (List Nat) := []
  /-- times and rows of corrected larder errors, by tile × 16 + bank -/
  bankErrs : Map (List (Nat × Nat)) := []
  /-- bank rows already retired or pending: (tile × 16 + bank, row) -/
  pendingRows : List (Nat × Nat) := []
  /-- tiles with a fault found outside the step-end scan: a fifth retirement in a larder bank (R72) -/
  tileFaults : List Nat := []
  /-- the retained record's repair entries in the layout of R382 -/
  repairs : List W64 := []
  /-- regions whose array row test runs, with the tile (R58) -/
  rowTests : List Nat := []
  /-- the last 64 fault messages seen: origin and number -/
  seen : List (Nat × Nat) := []
  /-- the cause and origin of a fault message received while issue has not stopped (R428, R429) -/
  told : Option (Nat × Nat) := none
  /-- faults this device has originated -/
  originated : Nat := 0
  /-- the last OP_LOWER_REQUEST with cause SLIP -/
  slipRequest : Option Nat := none
  /-- event records not yet consumed, by function (R440) -/
  evtUnread : Map Nat := []
  /-- functions with records not yet announced by vector 64, and the tick it was last raised at -/
  evtDue : List Nat := []
  evtIntAt : Map Nat := []
  /-- a control-core fault has stopped fetching and completion (R435) -/
  coreFault : Bool := false
  deriving DecidableEq, Repr

end Sys2Proof.Machine
end

