-- ==== Sys2Proof/Machine/HostState.lean ====
section
/-!
DEFINITION. What the CXL ports, queues, hatches and encode streams hold (10_host_interface).
-/
namespace Sys2Proof.Machine

/-- A descriptor that has been fetched and not executed. -/
structure Fetched where
  index : Nat
  bytes : List Byte
  /-- the frame number in force at the fetch (R182) -/
  frame : Nat
  deriving DecidableEq, Repr

/-- One queue (R328 to R333, R143); its set-up and positions are in QCFG. -/
structure Queue where
  waiting : List Fetched := []
  executing : List DescRef := []
  /-- the order number of an executed WAIT or FENCE descriptor that the next one waits for (R330) -/
  blocker : Option Nat := none
  /-- completion entries written and not yet covered by CQ_HEAD -/
  uncovered : Nat := 0
  /-- descriptors fetched since the queue was enabled -/
  fetched : Nat := 0
  /-- the arrival of the doorbell being served (R337) -/
  bell : Option Nat := none
  /-- a descriptor break holds the queue -/
  held : Bool := false
  /-- a fetch error has stopped the queue -/
  stopped : Bool := false
  /-- the value at which the executing WAIT's flag first reached its VALUE (R340) -/
  hit : Option Nat := none
  /-- the doorbell page's last values (R327) -/
  sqTail : Nat := 0
  cqHead : Nat := 0
  deriving DecidableEq, Repr

/-- What fills the slots of an OUT hatch (R349). -/
inductive JobKind where
  /-- an output record of a context's request -/
  | record (ctx req : Nat)
  /-- an encoded frame of a stream: its number, and whether it is a key frame -/
  | frame (stream frame : Nat) (key : Bool)
  /-- the END_OF_STREAM slot of a stream -/
  | close (stream : Nat)
  | copy (d : DescRef)
  deriving DecidableEq, Repr

/-- A record, frame or copy on its way through a hatch. -/
structure HatchJob where
  kind : JobKind
  ctx : Nat
  data : List Byte
  /-- the spans of the data that were read with the poison flag: from, to -/
  poison : List (Nat × Nat)
  /-- slots written so far, oldest first -/
  written : List Nat
  deriving DecidableEq, Repr

/-- One hatch (R346 to R352). -/
structure Hatch where
  /-- slots whose flag the device has read as DEVICE and not handed back: the shadow of R351 -/
  owned : List Nat := []
  jobs : List HatchJob := []
  /-- the last COUNT accepted from each context, for an IN hatch -/
  lastIn : Map Nat := []
  deriving DecidableEq, Repr

/-- A FRAMES of a stream (R356, R357). -/
structure FrameJob where
  desc : DescRef
  ctx : Nat
  /-- the request whose completion releases the frames, and the status it completed with -/
  after : Option Nat
  status : Option Nat
  forceKey : Bool
  src : Nat
  count : Nat
  pitch : Nat
  stride : Nat
  done : Nat
  bytes : Nat
  deriving DecidableEq, Repr

/-- An open encode stream (R355 to R358). -/
structure Stream where
  ctx : Nat
  engine : Nat
  codec : Nat
  depth : Nat
  /-- rate control, GOP mode, RATE or QP, MAX_RATE and tile columns as OPEN gave them (R354, R356) -/
  rc : Nat := 0
  gopMode : Nat := 0
  rate : Nat := 0
  maxRate : Nat := 0
  tileCols : Nat := 0
  width : Nat
  height : Nat
  /-- luma samples a second, as a fraction -/
  rateNum : Nat
  rateDen : Nat
  keyInterval : Nat
  hatch : Nat
  frames : List FrameJob
  /-- frames encoded -/
  next : Nat
  /-- the next frame is a key frame after a poisoned one (R358) -/
  needKey : Bool
  /-- a frame is on its way through the hatch -/
  busy : Bool
  closing : Option DescRef
  deriving DecidableEq, Repr

/-- One CXL port of the module (R321, R324). -/
structure CxlPort where
  /-- the tick at which the link went down -/
  downAt : Option Nat := none
  deriving DecidableEq, Repr

/-- The host side. -/
structure HostState where
  /-- by function × 64 + queue -/
  queues : Map Queue := []
  /-- by function × 16 + hatch -/
  hatches : Map Hatch := []
  /-- OUT slots sent for each context (R352) -/
  outCount : Map Nat := []
  /-- by function × 32 + stream -/
  streams : Map Stream := []
  /-- descriptors whose work is done and whose completion is to be written, with status and result value -/
  done : List (DescRef × Nat × Nat) := []
  /-- execution order numbers and doorbell arrivals given out -/
  order : Nat := 0
  bells : Nat := 0
  ports : Map CxlPort := []
  /-- functions that have failed over and wait for memory space at the new port -/
  moved : List Nat := []
  /-- writes that wait for a function's port, oldest first, with the DONE_FLAG that a completion entry counts (R324, R332) -/
  unflushed : List (Nat × Output × Option Nat) := []
  /-- completion entries, hatch slots and hatch flags issued after the last completed flushing read of their function (R324) -/
  recent : List (Nat × Output) := []
  /-- the MSI-X table, by function × 65 + vector: message address, data and vector control (R326) -/
  msix : Map (BitVec 128) := []
  deriving DecidableEq, Repr

end Sys2Proof.Machine
end

