-- ==== Sys2Proof/Machine/LinkState.lean ====
section
/-!
DEFINITION. What the Oadlink ports and port dies hold (07_oadlink_fabric).
-/
namespace Sys2Proof.Machine

/-- A crate (R233): its 8-byte header and its 40-byte payload. -/
structure Crate where
  hdr : W64
  data : List Byte
  deriving DecidableEq, Repr

/-- A sequenced codeword in a replay buffer (R251): its SEQ, the bytes of its crate positions and tag share as first sent,
whether position 0 holds a frame-start crate, its EPO, and how often it has been resent. -/
structure SentWord where
  seq : Nat
  body : List Byte
  tag : List Byte
  fstart : Bool
  epo : Nat
  tries : Nat
  /-- the crates it carries, in plaintext, which a fold sends again on the siblings (R253) -/
  crates : List Crate
  deriving DecidableEq, Repr

/-- A sequenced codeword received and not released (R232), with the tick of its arrival. -/
structure HeldWord where
  seq : Nat
  epo : Nat
  at_ : Nat
  body : List Byte
  deriving DecidableEq, Repr

/-- A link message being assembled (R237). -/
structure Assembly where
  msg : Nat
  parts : Nat
  got : Nat
  at_ : Nat
  body : List Byte
  /-- the message has been discarded and counted; `got` goes on counting its parts, which are ignored -/
  dead : Bool := false
  deriving DecidableEq, Repr

/-- What a neighbour's last frame-start crate said (R236). -/
structure NeighbourFrame where
  valid : Bool := false
  op : Nat := 0
  dev : Nat := 0
  epoch : Nat := 0
  frame : Nat := 0
  dframe : Nat := 0
  domain : Nat := 0
  inDomain : Bool := false
  /-- arrival in ticks from this device's frame start -/
  arrival : Nat := 0
  deriving DecidableEq, Repr

/-- One Oadlink port; its state code, reason, lanes, neighbour and latency stand in its registers (R266). -/
structure LinkPort where
  /-- egress queues: link and domain control, plan with its tallies, dynamic and broadcast (R242) -/
  ctl : List Crate := []
  plan : List Crate := []
  dyn : List Crate := []
  /-- credits held towards the neighbour, credits to return, and open positions used in the plan beat (R243) -/
  credits : Nat := 4096
  owed : Nat := 0
  openUsed : Nat := 0
  /-- the frame-start crate is due in the next sequenced codeword (R236) -/
  fstart : Bool := false
  /-- sender: next SEQ, the unacknowledged codewords, oldest first, and those to resend -/
  txSeq : Nat := 0
  replay : List SentWord := []
  resend : List SentWord := []
  /-- codewords sent under the keys, the ciphertext of the group in progress, and the tag of the group before (R232) -/
  txCount : Nat := 0
  txGroup : List Byte := []
  txTag : List Byte := []
  txKey : Option (List Byte) := none
  /-- codewords are encrypted from the next one on -/
  txOn : Bool := false
  /-- receiver -/
  rxNext : Nat := 0
  rxAck : Nat := 65535
  nak : Bool := false
  nakAt : Nat := 0
  rxCount : Nat := 0
  rxHeld : List HeldWord := []
  rxTag : List Byte := []
  rxKey : Option (List Byte) := none
  rxOn : Bool := false
  /-- the group whose tag has failed once (R255) -/
  tagFail : Option Nat := none
  /-- crates released and not yet at the routing of R240 -/
  ingress : List Crate := []
  /-- frame-start crates released, with the tick each arrived at -/
  fsIn : List (Nat × Crate) := []
  /-- the tick at which the port came to its state, and the start of the counting interval in progress (R256, R420) -/
  since : Nat := 0
  intervalAt : Nat := 0
  /-- lanes that have lost lock and may regain it, with the tick (R252) -/
  lostLock : List (Nat × Nat) := []
  /-- a lane degraded by replays folds the port at the next frame start (R253) -/
  foldAt : Option Nat := none
  /-- crates of a folded port not yet resent on siblings, with their SEQ (R253) -/
  stranded : List (Nat × Crate) := []
  /-- link messages sent, by subtype, and parts received -/
  msgOut : Map Nat := []
  msgIn : Map Assembly := []
  /-- the ephemeral key's draw, and what the neighbour's check and keying messages gave -/
  eph : Nat := 0
  sentFinal : Bool := false
  gotFinal : Bool := false
  nbHash : List Byte := []
  nbKey : List Byte := []
  nbAbi : Nat := 0
  /-- the keys of a verified key agreement: sending, receiving -/
  keyed : Option (List Byte × List Byte) := none
  /-- probes sent with the tick each was sent at, echoes received, and probes to echo: number, arrival tick (R259) -/
  probes : Nat := 0
  /-- the probe of this frame is due (R259) -/
  probeDue : Bool := false
  probeAt : Map Nat := []
  echoes : Nat := 0
  toEcho : List (Nat × Nat) := []
  /-- largest one-way sample of the frame in progress and of the last 16 frames, in ticks; largest round trip -/
  oneWay : Option Int := none
  samples : List (Option Int) := []
  rtt : Nat := 0
  frameInfo : NeighbourFrame := {}
  /-- the estimate of the neighbour's mark offset in the frame in progress (R189) -/
  markOff : Option Int := none
  /-- replays counted in the 1 s interval in progress and in those before it, newest first, and the corrected symbols of each lane
  in each interval (R420) -/
  replays : Nat := 0
  syms : List Nat := [0, 0, 0, 0]
  intervals : List (Nat × List Nat) := []
  deriving DecidableEq, Repr

/-- An F crate held at its destination (R247). -/
structure HeldCrate where
  crate : Crate
  port : Nat
  die : Nat
  source : Nat
  at_ : Nat
  stalled : Bool
  /-- it came in a fabric epoch that has ended, so that no crate it is to follow can still come (R246, R249) -/
  past : Bool := false
  deriving DecidableEq, Repr

/-- A dynamic, broadcast or store transfer that is arriving (R235). -/
structure Incoming where
  stream : Nat
  base : Nat
  addr : Nat
  len : Nat
  /-- the key of the context the data goes to, and how many of the transfer's crates have come -/
  ctx : Nat
  got : Nat
  /-- the load, shard position and attempt that the data is for -/
  load : Option (Nat × Nat × Nat)
  /-- data for a vault destination, gathered by offset, and the vault marker -/
  vault : Bool
  buf : Memory
  poison : Bool
  /-- the header was refused: its data is discarded -/
  drop : Bool
  deriving DecidableEq, Repr

/-- A pairing entry of the charter (R257, R262). -/
structure Pairing where
  dev : Nat := 0
  port : Nat := 0
  hash : List Byte := []
  deriving DecidableEq, Repr

/-- The fabric side of the device. -/
structure LinkState where
  ports : Map LinkPort := []
  /-- tallies of R247, by port die × 65536 + device ID -/
  sent : Map Nat := []
  received : Map Nat := []
  held : List HeldCrate := []
  /-- fence tallies received: source, stream, SEQ, count -/
  fences : List (Nat × Nat × Nat × Nat) := []
  /-- PLAN crates on their way to their tiles, with the port die -/
  inbox : List (Nat × Crate) := []
  incoming : List Incoming := []
  /-- data crates that wait for their header, with their ingress port -/
  early : List (Nat × Crate) := []
  /-- copies of broadcast crates that have not left: number, ingress port, egress port or 24 for a local copy that waits for its
  header, crate (R263) -/
  copies : List (Nat × Nat × Nat × Crate) := []
  copyNo : Nat := 0
  /-- DOMAIN_CTL crates released, with their ingress port -/
  faultIn : List (Nat × Crate) := []
  slice : Nat := 0
  /-- the flyover connectors FX0 to FX5 whose FXn_PRSNT# reads present (R459) -/
  cables : List Nat := []
  /-- the partition each store port is assigned to (R265) -/
  stores : Map Nat := []
  pairing : Map Pairing := []
  /-- the identity public key: modulus and exponent, and the stations' node hashes stand in the pairing -/
  identity : List Byte := []
  /-- the next fabric epoch and the frame it is adopted at (R249) -/
  nextEpoch : Option (Nat × Nat) := none
  /-- transfer tags given out -/
  tags : Nat := 0
  deriving DecidableEq, Repr

end Sys2Proof.Machine
end

