-- ==== Sys2Proof/Machine/MemState.lean ====
section
/-!
DEFINITION. What the cellar, its controllers, the key slots and the staging engine hold (06_memory_tiers).
-/
namespace Sys2Proof.Machine

/-- A page copy onto a remap page in progress (R204): the site and the page within the site. -/
structure PageCopy where
  site : Nat
  page : Nat
  deriving DecidableEq, Repr

/-- One cellar site (R203, R205, R211). -/
structure Site where
  /-- retired pages in the order of the retire list -/
  retired : List Nat := []
  /-- the pages of the last 64 corrected symbols, newest first, with the ticks they were found at (R203, R420) -/
  history : List (Nat × Nat) := []
  /-- the ticks of the corrected symbols of the last hour since the threshold last acted (R419, R420) -/
  window : List Nat := []
  hot : Bool := false
  deriving DecidableEq, Repr

/-- One key slot of the security block (R214, R221): its holder, which keys it holds, and WCOUNT. -/
structure KeySlot where
  /-- the key of the context that holds the slot -/
  owner : Option Nat := none
  /-- the draw of the entropy source that filled the slot's AES-256-XTS pair and AES-256-GCM key; a slot never filled or erased holds zeros -/
  keys : Option Nat := none
  wcount : Nat := 0
  /-- the hatch key, unset until ATTEST installs it (R352, R394) -/
  hatchKey : Option (List Byte) := none
  deriving DecidableEq, Repr

/-- One staging entry of a running plan's list (R223 to R225). -/
structure StageFetch where
  ctx : Nat
  entry : Nat
  vault : Nat
  cellar : Nat
  pages : Nat
  due : Nat
  lead : Nat
  subst : Bool
  /-- the step whose fetch is in progress or done -/
  step : Nat
  started : Bool
  /-- its due beat has started -/
  passed : Bool
  /-- pages written so far, in order -/
  written : Nat
  /-- the data of the pages that have come, which the digest of R283 covers, while the fetch is in progress -/
  data : List Byte := []
  /-- the entry was read with the poison flag: it is not fetched (R57; log entry 77) -/
  poisoned : Bool := false
  /-- no page of the destination failed its check, and none has been overwritten since it was complete (R222, R422) -/
  intact : Bool
  /-- pages of the second fetch after a digest mismatch (R283) -/
  refetched : Bool
  abandoned : Bool
  /-- counted as absent at its due beat (MEM_VLATE counts each absent entry once) -/
  counted : Bool
  deriving DecidableEq, Repr

/-- Cellar bytes that hold ciphertext of a context which has ended (R215, R275): a span, and the draw of the entropy source that gave the key
slot its keys. -/
structure OldCipher where
  base : Nat
  bytes : Nat
  keys : Option Nat
  deriving DecidableEq, Repr

/-- The memory tiers. -/
structure MemState where
  /-- the cellar by cellar address, as its contexts read it -/
  cellar : Memory := []
  /-- the 64-byte transfers stored with the poison marker (R202), by transfer number -/
  marks : Map Bool := []
  /-- what contexts that have ended left encrypted, and no new context's zeros have passed over (R207, R215, R275) -/
  stale : List OldCipher := []
  sites : Map Site := []
  copies : List PageCopy := []
  keys : Map KeySlot := []
  staging : List StageFetch := []
  deriving DecidableEq, Repr

end Sys2Proof.Machine
end

