-- ==== Sys2Proof/Machine/State.lean ====
section
/-!
DEFINITION. The state of the block and its state after reset.
-/
namespace Sys2Proof.Machine

/-- The domain the device belongs to while it is in domain mode (R21, R345, R428). -/
structure Domain where
  id : Nat
  ctx : Nat
  epoch : Nat
  /-- waiting in domain recovery -/
  recovery : Bool
  deriving DecidableEq, Repr

/-- A domain start that waits for its frame (R159, R345). -/
structure DomainStart where
  dom : Domain
  /-- START_LOCAL and FRAME_OFFSET -/
  frame : Nat
  offset : Nat
  deriving DecidableEq, Repr

/-- The state. -/
structure State where
  /-- commands that wait, first in, first out -/
  pending : List Instr
  /-- setup registers, by function × 2^24 + offset: their stored bits -/
  regs : Map W64
  tiles : Map Tile
  clk : Clock
  mem : MemState
  link : LinkState
  /-- contexts, by partition × 256 + index -/
  ctxs : Map Ctx
  dom : Option Domain
  domNext : Option DomainStart
  faults : FaultState
  host : HostState
  boot : BootState
  power : PowerState
  /-- free values drawn so far (a field of the model, not of the spec) -/
  free : Nat
  /-- what the device has written outside, newest last -/
  out : List Output
  deriving DecidableEq, Repr

/-- Who stops the machine: no command of this model ends in a fault. -/
inductive Fault where
  deriving DecidableEq, Repr

/-- Why a command has no meaning. -/
inductive Refusal where
  /-- The dispatch answers this for a command that the model does not give a meaning yet.  Safe: the machine stops. -/
  | notModelled (mnemonic : String)
  deriving DecidableEq, Repr

/-- The module without input power, as it stands before POWER_UP (R447, R451). -/
def State.reset : State where
  pending := []
  regs := []
  tiles := []
  clk := {}
  mem := {}
  link := {}
  ctxs := []
  dom := none
  domNext := none
  faults := {}
  host := {}
  boot := {}
  power := {}
  free := 0
  out := []

end Sys2Proof.Machine
end

