-- ==== Sys2Proof/Machine/Operands.lean ====
section
/-!
DEFINITION. Operand forms: the fields of a bundle and of each slot word (R103, R111 to R125), and the reads of a tile's
registers.
-/
namespace Sys2Proof.Machine

/-- Bits [hi:lo] of a slot word. -/
def fld (w : SlotWord) (hi lo : Nat) : Nat := bitsOf w.toNat hi lo

/-- One bit of a slot word. -/
def flag (w : SlotWord) (i : Nat) : Bool := w.getLsbD i

/-- OP (R111). -/
def opOf (w : SlotWord) : Nat := fld w 47 42

/-- PRED (R109, R111). -/
def predField (w : SlotWord) : Nat := fld w 41 38

/-- The slot words of a bundle (R103). -/
def slotOf (b : BitVec 256) : Slot → SlotWord
  | .m => b.extractLsb' 16 48
  | .v => b.extractLsb' 64 48
  | .l => b.extractLsb' 112 48
  | .x => b.extractLsb' 160 48
  | .c => b.extractLsb' 208 48

/-- UNT (R104). -/
def bundleUnt (b : BitVec 256) : Bool := b.getLsbD 0

/-- The reserved flag bits [7:1] (R104). -/
def bundleReserved (b : BitVec 256) : Nat := bitsOf b.toNat 7 1

/-- TAG (R103). -/
def bundleTag (b : BitVec 256) : Nat := bitsOf b.toNat 15 8

/-! ### Register reads -/

def Tile.sreg (t : Tile) (i : Nat) : W64 := mget 0 t.s i
def Tile.vreg (t : Tile) (i : Nat) : BitVec 2048 := mget 0 t.v i
def Tile.lcReg (t : Tile) (i : Nat) : BitVec 32 := mget 0 t.lc i
def Tile.mcReg (t : Tile) (i : Nat) : W64 := mget 0 t.mc i
def Tile.acReg (t : Tile) (i : Nat) : BitVec 32 := mget 0 t.ac i
def Tile.binding (t : Tile) (i : Nat) : W64 := mget 0 t.bind i

/-- A predicate register: P0 always reads 1 (R108). -/
def Tile.predReg (t : Tile) (i : Nat) : Bool := i == 0 || t.p.getLsbD i

/-- Whether an operation takes effect (R109). -/
def Tile.predOk (t : Tile) (w : SlotWord) : Bool :=
  t.predReg (predField w % 8) != decide (8 ≤ predField w)

/-- Lane `i` of a vector value. -/
def laneOf (v : BitVec 2048) (i : Nat) : BitVec 32 := v.extractLsb' (32 * i) 32

/-- A vector from its 64 lanes. -/
def ofLanes (l : List (BitVec 32)) : BitVec 2048 :=
  BitVec.ofNat 2048 (l.foldr (fun x acc => x.toNat + 2 ^ 32 * acc) 0)

/-- The 64 lane numbers. -/
def laneIdx : List Nat := List.range 64

/-- The lanes of a vector value. -/
def lanesOf (v : BitVec 2048) : List (BitVec 32) := laneIdx.map (laneOf v)

/-- A vector computed lane by lane. -/
def mapLanes (f : Nat → BitVec 32) : BitVec 2048 := ofLanes (laneIdx.map f)

/-! ### V-slot fields (R116) -/

def vdF (w : SlotWord) : Nat := fld w 37 33
def vaF (w : SlotWord) : Nat := fld w 32 28
def vbF (w : SlotWord) : Nat := fld w 27 23
def vcF (w : SlotWord) : Nat := fld w 22 18
def modF (w : SlotWord) (hi lo : Nat) : Nat := fld w hi lo

/-- The group size of MOD[1:0] (R116), as a power of two: 8, 16, 32 or 64 lanes. -/
def groupLog (w : SlotWord) : Nat := 3 + fld w 1 0

/-! ### Matrix configurations (R114) -/

def mcF (c : W64) (hi lo : Nat) : Nat := bitsOf c.toNat hi lo

/-- The format groups of R37. -/
inductive Group where
  | single | packed | bf16
  deriving DecidableEq, Repr

/-- The group of an operand format; FP32 and INT32 belong to none (R37, R114). -/
def Fmt.group : Fmt → Option Group
  | .e4m3 | .e5m2 | .int8 => some .single
  | .e2m3 | .e3m2 | .e2m1 | .int4 => some .packed
  | .bf16 => some .bf16
  | .fp32 | .int32 => none

/-- MX formats carry block scales (R82). -/
def Fmt.mx : Fmt → Bool
  | .e2m3 | .e3m2 | .e2m1 => true
  | _ => false

/-- The modes of R40. -/
inductive AccMode where
  | direct | clear | add | addOut
  deriving DecidableEq, Repr

/-- A decoded matrix configuration. -/
structure MatCfg where
  sfmt : Fmt
  wfmt : Fmt
  group : Group
  sparse : Bool
  mode : AccMode
  anchor : BitVec 9
  ofmt : Fmt
  rmode : RMode
  sat : Bool
  shift : Int
  vdst : Bool
  deriving DecidableEq, Repr

/-- Read a matrix configuration; none where R114 makes the MMUL illegal. -/
def MatCfg.ofWord (c : W64) : Option MatCfg :=
  match Fmt.ofCode (mcF c 3 0), Fmt.ofCode (mcF c 7 4), Fmt.ofCode (mcF c 23 20) with
  | some sf, some wf, some o =>
    match sf.group, wf.group with
    | some g, some g' =>
      let sparse := c.getLsbD 8
      let vdst := c.getLsbD 35
      let okOut := o = .e4m3 ∨ o = .e5m2 ∨ o = .int8 ∨ o = .bf16 ∨ o = .fp32 ∨ o = .int32
      let okV := !vdst || (o = .fp32 ∨ o = .int32 ∨ o = .bf16)
      if g = g' ∧ ¬(sparse = true ∧ g = .bf16) ∧ okOut ∧ okV = true then
        some { sfmt := sf, wfmt := wf, group := g, sparse := sparse,
               mode := match mcF c 10 9 with | 0 => .direct | 1 => .clear | 2 => .add | _ => .addOut,
               anchor := BitVec.ofNat 9 (mcF c 19 11), ofmt := o, rmode := RMode.ofCode (mcF c 26 24),
               sat := c.getLsbD 27, shift := signedOf 7 (mcF c 34 28), vdst := vdst }
      else none
    | _, _ => none
  | _, _, _ => none

/-- Features per row (R37). -/
def MatCfg.features (c : MatCfg) : Nat :=
  match c.group with
  | .single => if c.sparse then 64 else 32
  | .packed => if c.sparse then 128 else 64
  | .bf16 => 32

/-- Bytes of one stationary row: elements, then one scale byte per 32 features in MX formats (R83). -/
def MatCfg.rowBytes (c : MatCfg) : Nat :=
  c.features * c.sfmt.bits / 8 + (if c.sfmt.mx then c.features / 32 else 0)

/-- Stationary block bytes (R37). -/
def MatCfg.blockBytes (c : MatCfg) : Nat := 32 * c.rowBytes

/-- Fill cycles F (R38). -/
def MatCfg.fillCycles (c : MatCfg) : Nat := (c.blockBytes + 127) / 128

/-- Streamed bytes of one weight vector (R37, R84). -/
def MatCfg.vecBytes (c : MatCfg) : Nat :=
  if c.sparse then
    c.features / 2 * c.wfmt.bits / 8 + c.features / 8 + (if c.wfmt.mx then c.features / 32 else 0)
  else c.features * c.wfmt.bits / 8 + (if c.wfmt.mx then c.features / 32 else 0)

/-- Cycles each weight vector occupies (R39). -/
def MatCfg.vecCycles (c : MatCfg) : Nat := match c.group with | .bf16 => 2 | _ => 1

/-- The format a result is written in: FP32-valued results take K = 0 and FP32 or BF16, else FP32 (R96). -/
def MatCfg.outFmt (c : MatCfg) : Fmt :=
  match c.group with
  | .bf16 => if c.shift = 0 ∧ (c.ofmt = .fp32 ∨ c.ofmt = .bf16) then c.ofmt else .fp32
  | _ => c.ofmt

/-- Bytes W of one result row (R115).  DESIGN CHOICE (log entry 66): where OFMT or K breaks R96 for an FP32-class result, W is that of the
format written, FP32. -/
def MatCfg.outBytes (c : MatCfg) : Nat := 32 * c.outFmt.bits / 8

/-- Offsets of the compare and of the result write from a vector's read (R45). -/
def MatCfg.cmpOff (c : MatCfg) : Nat := match c.group with | .bf16 => 8 | _ => 6
def MatCfg.outOff (c : MatCfg) : Nat := match c.group with | .bf16 => 10 | _ => 8

/-- N of an MMUL's NSRC field (R113): a scalar register or a loop counter; none where the encoding is illegal. -/
def Tile.nsrc (t : Tile) (w : SlotWord) : Option Nat :=
  let f := fld w 19 14
  if f < 32 then some (t.sreg f).toNat
  else if f < 36 then some (t.lcReg (f - 32)).toNat
  else none

/-! ### L-slot addresses (R118) -/

/-- The address of an LDS, STS, LDV or STV. -/
def Tile.lsAddr (t : Tile) (w : SlotWord) : Nat :=
  let b := (t.sreg (fld w 32 28)).toNat
  if flag w 0 then b else (b + 8 * fld w 27 12) % 2 ^ 64

/-- The value POST writes back to the base register. -/
def Tile.lsPost (t : Tile) (w : SlotWord) : W64 :=
  t.sreg (fld w 32 28) + BitVec.ofNat 64 (8 * fld w 27 12)

/-- Bytes of an LDV or STV: 8 × (LEN + 1). -/
def lvBytes (w : SlotWord) : Nat := 8 * (fld w 11 7 + 1)

/-- Larder size: addresses run to 0x2F_FFFF (R67). -/
def larderSize : Nat := 0x300000

/-- Whether an access of `n` bytes at `a` stays in the larder (R107). -/
def inLarder (a n : Nat) : Bool := decide (a + n ≤ larderSize)

end Sys2Proof.Machine
end

