-- ==== Sys2Proof/Machine/Flags.lean ====
section
/-!
DEFINITION. Conditions and flags: the compare conditions of the C and V slots (R116, R125), the special state and the
INEXACT and RANGE flags of an accumulator (R88, R90).
-/
namespace Sys2Proof.Machine

/-- COND values 0–5: EQ, NE, LT, GE, LTU, GEU (R125, R116). -/
def condHolds {n : Nat} (c : Nat) (a b : BitVec n) : Bool :=
  match c with
  | 0 => a == b
  | 1 => a != b
  | 2 => a.slt b
  | 3 => !a.slt b
  | 4 => a.ult b
  | 5 => !a.ult b
  | _ => false

/-- The compare of VCMP.F (R63, R116): 0 EQ, 1 NE, 2 LT, 3 GE. -/
def fcondHolds (c : Nat) (a b : F32) : Bool :=
  match c with
  | 0 => feq a b
  | 1 => !feq a b
  | 2 => flt a b
  | 3 => !a.isNaN && !b.isNaN && !flt a b
  | _ => false

/-- PLOG's four combinations (R125): AND, OR, XOR, AND NOT. -/
def plogOp (o : Nat) (a b : Bool) : Bool :=
  match o with
  | 0 => a && b
  | 1 => a || b
  | 2 => a != b
  | _ => a && !b

/-- The combination of special states (R90): 0 finite, 1 +∞, 2 −∞, 3 NaN. -/
def combineSpecial (a b : BitVec 2) : BitVec 2 :=
  if a = 0 then b else if b = 0 then a else if a = b then a else 3

/-- Add two accumulators of one anchor: X modulo 2^112, the flags OR, the special states combine (R88, R90, R92). -/
def Lane.add (a b : Lane) : Lane where
  x := a.x + b.x
  special := combineSpecial a.special b.special
  inexact := a.inexact || b.inexact
  range := a.range || b.range

end Sys2Proof.Machine
end

