-- ==== Sys2Proof/Machine/Array.lean ====
section
/-!
DEFINITION. What the matrix array computes (R37, R48 to R52, R83 to R100): operands, products, the accumulators of one
cycle, the checksum row, exact partials and output rounding.
-/
namespace Sys2Proof.Machine

/-- One operand element: its number, and its block scale if its format has one. -/
structure Elem where
  num : Num
  scale : Option Nat
  deriving DecidableEq, Repr

/-- The elements of a row laid out as R83 gives it, from its bytes. -/
def rowElems (f : Fmt) (features : Nat) (bs : List Byte) : List Elem :=
  let v := leNat bs
  let off := features * f.bits / 8
  (List.range features).map (fun i =>
    { num := f.decode (f.elem v i),
      scale := if f.mx then some (fieldAt bs (off + i / 32) 1) else none })

/-- The streamed vector: each value with the feature it multiplies (R49, R84). -/
def vecElems (c : MatCfg) (bs : List Byte) : List (Nat × Elem) :=
  let v := leNat bs
  if c.sparse then
    let n := c.features / 2
    let ioff := n * c.wfmt.bits / 8
    let soff := ioff + n / 4
    (List.range n).map (fun i =>
      (4 * (i / 2) + v / 2 ^ (8 * ioff + 2 * i) % 4,
       { num := c.wfmt.decode (c.wfmt.elem v i),
         scale := if c.wfmt.mx then some (fieldAt bs (soff + i / 16) 1) else none }))
  else
    (List.range c.features).map (fun i =>
      (i, { num := c.wfmt.decode (c.wfmt.elem v i),
            scale := if c.wfmt.mx then some (fieldAt bs (c.features * c.wfmt.bits / 8 + i / 32) 1) else none }))

/-- The combined scale exponent e (R85). -/
def scaleExp (a b : Elem) : Int :=
  let one := fun (s : Option Nat) => match s with | some v => (v : Int) - 127 | none => 0
  one a.scale + one b.scale

/-- One product with its scale applied (R85, R90): a block scale of 0xFF makes the element NaN (R82). -/
def product (a b : Elem) : Num :=
  if a.scale = some 0xFF ∨ b.scale = some 0xFF then .nan
  else match Num.mul a.num b.num with
    | .fin neg m e => .fin neg m (e + scaleExp a b)
    | x => x

/-- The products of one token row against a vector. -/
def rowProducts (row : List Elem) (vec : List (Nat × Elem)) : List Num :=
  vec.map (fun p => product (row.getD p.1 ⟨.fin false 0 0, none⟩) p.2)

/-- What one product adds to an accumulator with anchor A (R88, R90). -/
def productLane (anchor : Int) (p : Num) : Lane :=
  match p with
  | .nan => { special := 3 }
  | .inf neg => { special := if neg then 2 else 1 }
  | .fin neg m e =>
    let u := anchor - 48
    let k := if u ≤ e then m * 2 ^ (e - u).toNat else m / 2 ^ (u - e).toNat
    let lost := decide (e < u) && m % 2 ^ (u - e).toNat != 0
    let big := if e ≤ anchor + 38 then decide (m ≥ 2 ^ (anchor + 38 - e).toNat) else decide (m > 0)
    { x := BitVec.ofInt 112 (if neg then -(k : Int) else k), inexact := lost, range := big }

/-- The accumulator contribution of one token row (R88). -/
def rowLane (anchor : Int) (ps : List Num) : Lane :=
  ps.foldl (fun acc p => acc.add (productLane anchor p)) {}

/-- A product in the units of the compare domain, 2^(e_min − 32) (R93). -/
def cmpUnits (emin : Int) (p : Num) : Int := p.atScale (emin - 32)

/-- Whether a product is special (R90). -/
def Num.isSpecial : Num → Bool
  | .fin .. => false
  | _ => true

/-! ### One cycle of the single and packed groups -/

/-- The rows of a stationary block. -/
def blockRows (c : MatCfg) (block : Memory) : List (List Elem) :=
  (List.range 32).map (fun r => rowElems c.sfmt c.features (readBytes block (r * c.rowBytes) c.rowBytes))

/-- The least combined scale exponent among a cycle's products (R93). -/
def leastExp (rows : List (List Elem)) (vec : List (Nat × Elem)) : Int :=
  (rows.flatMap (fun row => vec.map (fun p => scaleExp (row.getD p.1 ⟨.fin false 0 0, none⟩) p.2))).foldl min 600

/-- A row output as a faulty array delivers it, replacing the computed one (R51, R56). -/
structure RowValue where
  lane : Lane
  cmp : BitVec 120
  mag : F32
  deriving DecidableEq, Repr

/-- What one cycle of the array gives: the 32 row outputs, whether the compare mismatches, whether it is unchecked. -/
structure CycleOut where
  lanes : List Lane
  mismatch : Bool
  unchecked : Bool
  deriving DecidableEq, Repr

/-- One exact cycle (R51, R88, R93, R94).  `faults` replaces row outputs, `chk` the checksum output. -/
def exactCycle (c : MatCfg) (rows : List (List Elem)) (vec : List (Nat × Elem))
    (faults : List (Nat × RowValue)) (chk : Option (BitVec 120)) : CycleOut :=
  let prods := rows.map (fun r => rowProducts r vec)
  let emin := leastExp rows vec
  let cmps := prods.map (fun ps => BitVec.ofInt 120 ((ps.map (cmpUnits emin)).foldl (· + ·) 0))
  let lanes := prods.map (rowLane (c.anchor.toInt))
  let find := fun r => (faults.find? (fun f => f.1 == r)).map (·.2)
  let sum := (List.range 32).foldl (fun acc r =>
    acc + (match find r with | some v => v.cmp | none => cmps.getD r 0)) 0
  let check := chk.getD (cmps.foldl (· + ·) 0)
  let unchecked := prods.any (fun ps => ps.any Num.isSpecial)
  { lanes := (List.range 32).map (fun r => match find r with | some v => v.lane | none => lanes.getD r {}),
    mismatch := !unchecked && check != sum, unchecked := unchecked }

/-! ### One cycle of the BF16 group -/

/-- The FP32 value of a BF16 element. -/
def Elem.f32 (e : Elem) : F32 := e.num.toF32

/-- The 32 rounded products of a row (R95). -/
def bfProducts (row : List F32) (vec : List F32) : List F32 := List.zipWith fmul row vec

/-- |C − D| > 2^-16 × M on exact values (R52). -/
def bfExceeds (cv dv mv : F32) : Bool :=
  match cv.num, dv.num, mv.num with
  | .fin nc mc ec, .fin nd md ed, .fin nm mm em =>
    let e := min ec (min ed (em - 16))
    let d := Num.atScale (.fin nc mc ec) e - Num.atScale (.fin nd md ed) e
    decide (d.natAbs > (Num.atScale (.fin nm mm (em - 16)) e).natAbs)
  | _, _, _ => false

/-- One BF16 cycle (R50, R52, R95). -/
def bfCycle (rows : List (List Elem)) (vec : List (Nat × Elem))
    (faults : List (Nat × RowValue)) (chk : Option (BitVec 120)) : CycleOut :=
  let w := vec.map (fun p => p.2.f32)
  let rs := rows.map (fun r => r.map Elem.f32)
  let find := fun r => (faults.find? (fun f => f.1 == r)).map (·.2)
  let outs := (List.range 32).map (fun r =>
    match find r with
    | some v => v.lane.x.extractLsb' 0 32
    | none => pairSum 5 (bfProducts (rs.getD r []) w))
  let mags := (List.range 32).map (fun r =>
    match find r with
    | some v => v.mag
    | none => pairSum 5 ((bfProducts (rs.getD r []) w).map fabs))
  let cols := (List.range 32).map (fun f => pairSum 5 (rs.map (fun r => r.getD f 0)))
  let cv : F32 := match chk with | some v => v.extractLsb' 0 32 | none => pairSum 5 (bfProducts cols w)
  let dv := pairSum 5 outs
  let mv := pairSum 5 mags
  let unchecked := (w ++ rs.flatten).any F32.special || cv.special || dv.special || mv.special
  { lanes := outs.map (fun o => { x := o.setWidth 112 }),
    mismatch := !unchecked && bfExceeds cv dv mv, unchecked := unchecked }

/-- One array cycle under a configuration. -/
def arrayCycle (c : MatCfg) (block : Memory) (vec : List Byte)
    (faults : List (Nat × RowValue)) (chk : Option (BitVec 120)) : CycleOut :=
  match c.group with
  | .bf16 => bfCycle (blockRows c block) (vecElems c vec) faults chk
  | _ => exactCycle c (blockRows c block) (vecElems c vec) faults chk

/-! ### The accumulation store -/

def AccEntry.lane (e : AccEntry) (i : Nat) : Lane := mget {} e.lanes i

/-- An entry from its 32 lanes. -/
def AccEntry.ofLanes (fp32 : Bool) (anchor : BitVec 9) (l : List Lane) : AccEntry :=
  { fp32 := fp32, anchor := anchor, lanes := (List.range 32).foldl (fun m i => mset {} m i (l.getD i {})) [] }

/-- The 32 lanes of an entry. -/
def AccEntry.all (e : AccEntry) : List Lane := (List.range 32).map e.lane

/-- FP32 addition in a lane (R40, R92). -/
def laneFadd (a b : Lane) : Lane :=
  { a with x := (fadd (a.x.extractLsb' 0 32) (b.x.extractLsb' 0 32)).setWidth 112 }

/-- The new value of an entry for incoming results, and whether their classes clash (R40, R41, R87). -/
def AccEntry.update (e : AccEntry) (mode : AccMode) (fp32 : Bool) (anchor : BitVec 9) (l : List Lane) : AccEntry × Bool :=
  let anchor := if fp32 then 0 else anchor
  match mode with
  | .direct => (e, false)
  | .clear => (.ofLanes fp32 anchor l, false)
  | .add | .addOut =>
    if e.fp32 != fp32 || (!fp32 && e.anchor != anchor) then (.ofLanes fp32 anchor l, true)
    else (.ofLanes fp32 anchor (List.zipWith (if fp32 then laneFadd else Lane.add) e.all l), false)

/-! ### Exact partials (R91, R92, R466) -/

/-- The 128 bits of a lane's exact partial. -/
def partialOf (e : AccEntry) (poison : Bool) (l : Lane) : Nat :=
  if e.fp32 then l.x.toNat % 2 ^ 32 + (if poison then 2 ^ 125 else 0) + 2 ^ 127
  else l.x.toNat + e.anchor.toNat * 2 ^ 112 + l.special.toNat * 2 ^ 121 + (if l.inexact then 2 ^ 123 else 0)
    + (if l.range then 2 ^ 124 else 0) + (if poison then 2 ^ 125 else 0)

/-- The 512 bytes of an entry's partials. -/
def entryBytes (e : AccEntry) (poison : Bool) : List Byte :=
  e.all.flatMap (fun l => leBytes 16 (partialOf e poison l))

/-- A partial read from memory. -/
structure ExactPartial where
  lane : Lane
  anchor : BitVec 9
  poison : Bool
  fp32 : Bool
  deriving DecidableEq, Repr

/-- Read a partial's 128 bits (R91): in the FP32 class the value is in bits [31:0]. -/
def readPartial (v : Nat) : ExactPartial :=
  let fp := bitsOf v 127 127 = 1
  { lane := if fp then { x := BitVec.ofNat 112 (bitsOf v 31 0) }
            else { x := BitVec.ofNat 112 (bitsOf v 111 0), special := BitVec.ofNat 2 (bitsOf v 122 121),
                   inexact := bitsOf v 123 123 = 1, range := bitsOf v 124 124 = 1 },
    anchor := BitVec.ofNat 9 (bitsOf v 120 112), poison := bitsOf v 125 125 = 1, fp32 := fp }

/-- The 32 partials of 512 bytes. -/
def readPartials (bs : List Byte) : List ExactPartial :=
  (List.range 32).map (fun i => readPartial (fieldAt bs (16 * i) 16))

/-- ALOAD of 32 partials (R466): the entry, and whether the tile is poisoned by a class that differs from lane 0's.  DESIGN CHOICE (log entry
66): the flags INEXACT and RANGE of a lane that becomes NaN in an exact tag because its partial is of the FP32 class are 0; an FP32 partial
has no such flags. -/
def aloadEntry (ps : List ExactPartial) : AccEntry × Bool :=
  let p0 := ps.headD ⟨{}, 0, false, false⟩
  let lanes := ps.map (fun p =>
    if p.fp32 != p0.fp32 then
      (if p0.fp32 then { x := (nan32).setWidth 112 } else { special := 3, inexact := p.lane.inexact, range := p.lane.range })
    else if !p.fp32 && p.anchor != p0.anchor then { p.lane with special := 3 }
    else p.lane)
  (.ofLanes p0.fp32 (if p0.fp32 then 0 else p0.anchor) lanes, ps.any (fun p => p.fp32 != p0.fp32))

/-- AADD of 32 partials into an entry (R92, R466): the entry, and whether the classes clash. -/
def aaddEntry (e : AccEntry) (ps : List ExactPartial) : AccEntry × Bool :=
  if ps.any (fun p => p.fp32 != e.fp32) then ((aloadEntry ps).1, true)
  else
    let one := fun (q : Lane) (p : ExactPartial) =>
      if e.fp32 then laneFadd q p.lane
      else if p.anchor != e.anchor then
        { q with special := 3, inexact := q.inexact || p.lane.inexact, range := q.range || p.lane.range }
      else q.add p.lane
    (.ofLanes e.fp32 e.anchor (List.zipWith one e.all ps), false)

/-! ### Output (R96 to R100) -/

/-- The code written for one lane. -/
def outCode (c : MatCfg) (fp32 : Bool) (l : Lane) : Nat :=
  if fp32 then c.outFmt.encode c.rmode c.sat (F32.num (l.x.extractLsb' 0 32))
  else
    let x : Num :=
      match l.special.toNat with
      | 1 => .inf false
      | 2 => .inf true
      | 3 => .nan
      | _ => .fin l.x.msb l.x.toInt.natAbs (c.anchor.toInt - 48 + c.shift)
    c.ofmt.encode c.rmode c.sat x

/-- The bytes of one result row (R115). -/
def outRow (c : MatCfg) (fp32 : Bool) (ls : List Lane) : List Byte :=
  let f := if fp32 then c.outFmt else c.ofmt
  ls.flatMap (fun l => leBytes (f.bits / 8) (outCode c fp32 l))

/-- The vector value a result row gives in half `hi` of a register, and its lane mask (R42). -/
def outHalf (c : MatCfg) (fp32 hi : Bool) (ls : List Lane) : BitVec 2048 × BitVec 64 :=
  let vals := ls.map (fun l => BitVec.ofNat 32 (outCode c fp32 l))
  let z := List.replicate 32 (0 : BitVec 32)
  if hi then (ofLanes (z ++ vals), 0xFFFFFFFF00000000#64) else (ofLanes (vals ++ z), 0xFFFFFFFF#64)

end Sys2Proof.Machine
end

