-- ==== Sys2Proof/Machine/TileCycle.lean ====
section
/-!
DEFINITION. One work cycle of a tile: the larder's banks and their arbitration (R67 to R70, R72), the store moves of the
L slot (R43, R118), the array's fill and weight reads (R45), and the passing of cycles while issue is held (R129, R164).
-/
namespace Sys2Proof.Machine

/-- Record an event for the device. -/
def Tile.event (t : Tile) (e : TileEvent) : Tile := { t with events := t.events ++ [e] }

/-- Set the poison state with a cause bit (R55, R421). -/
def Tile.poisoned (t : Tile) (bit : Nat) : Tile :=
  { t with poison := true, cause := t.cause ||| BitVec.ofNat 7 (2 ^ bit) }

/-- The poison and break of an illegal operation (R107). -/
def Tile.illegal (t : Tile) : Tile := (t.poisoned 5).event .timingBreak

/-- Put a result on its way to its register. -/
def Tile.later (t : Tile) (lat rank : Nat) (g : Target) : Tile :=
  { t with results := t.results ++ [{ due := t.cyc + lat, rank := rank, target := g }] }

/-! ### Larder accesses -/

/-- The banks an access addresses: address bits [7:4] of each granule (R67). -/
def Access.banks (a : Access) : List Nat :=
  (List.range ((a.addr + a.len + 15) / 16 - a.addr / 16)).map (fun i => (a.addr / 16 + i) % 16)

/-- The order of R70: priority, then the operation issued earlier, then the lower address. -/
def Access.before (a b : Access) : Bool :=
  decide (a.prio < b.prio) || (a.prio == b.prio && (decide (a.order < b.order) ||
    (a.order == b.order && decide (a.addr < b.addr))))

/-- Whether an access loses on one of its banks (R70). -/
def Access.loses (all : List Access) (taken : List Nat) (a : Access) : Bool :=
  a.banks.any taken.contains || all.any (fun b => b.before a && b.banks.any a.banks.contains)

/-- The number of set bits of a word. -/
def popCount (v : Nat) : Nat := (List.range 64).foldl (fun n i => n + v / 2 ^ i % 2) 0

/-- The number of bits a fault has changed in a stored word, its check bits among them. -/
def flipCount (v : Nat) : Nat := popCount (v % 2 ^ 64) + popCount (v / 2 ^ 64)

/-- The larder bytes an access reads, with what the faults in its words do (R72): one changed bit is corrected, data or check bit;
with more, the word is delivered as read. -/
def Tile.readLarder (t : Tile) (a : Access) : List Byte × Tile :=
  let hit := a.flips.filter (fun f => decide (f.1 % 8 = 0) && decide (f.1 < a.addr + a.len) && decide (a.addr < f.1 + 8))
  let bytes := readBytes t.larder a.addr a.len
  let flipped := (List.range a.len).map (fun i =>
    let ad := a.addr + i
    hit.foldl (fun b f =>
      if 2 ≤ flipCount f.2.toNat ∧ f.1 ≤ ad ∧ ad < f.1 + 8 then b ^^^ f.2.extractLsb' (8 * (ad - f.1)) 8 else b)
      (bytes.getD i 0))
  let t' := hit.foldl (fun u f =>
    let bank := f.1 / 16 % 16
    let row := f.1 / 2 ^ 14
    match flipCount f.2.toNat with
    | 0 => u
    | 1 => u.event (.larderCorrected bank row)
    | _ => (u.poisoned 1).event (.larderUncorrected bank row)) t
  (flipped, t')

/-- Change one job. -/
def Tile.modJob (t : Tile) (id : Nat) (f : Job → Job) : Tile :=
  { t with jobs := t.jobs.map (fun j => if j.id = id then f j else j) }

/-- Change one outgoing transfer. -/
def Tile.modSend (t : Tile) (id : Nat) (f : Transfer → Transfer) : Tile :=
  { t with sends := t.sends.map (fun x => if x.id = id then f x else x) }

/-- Deliver the bytes a read returned. -/
def Tile.deliver (t : Tile) (a : Access) (bs : List Byte) : Tile :=
  match a.use with
  | .none => t
  | .save => t
  | .sreg i due => { t with results := t.results ++ [⟨due, 1, .sreg i (BitVec.ofNat 64 (leNat bs))⟩] }
  | .vreg i due lo lanes =>
    { t with results := t.results ++ [⟨due, 1, .vreg i lanes (BitVec.ofNat 2048 (leNat bs * 2 ^ (32 * lo)))⟩] }
  | .acc entry add half due flips =>
    if half = 0 then
      { t with accMoves := t.accMoves ++ [⟨due, a.order, entry, none, add, bs, flips⟩] }
    else
      { t with accMoves := t.accMoves.map (fun m =>
          if m.due = due ∧ m.order = a.order ∧ m.entry = entry ∧ m.save = none then
            { m with partials := m.partials ++ bs } else m) }
  | .fill off => { t with shadow := writeBytes t.shadow off bs }
  | .weight job n half =>
    t.modJob job (fun j =>
      if half = 0 then { j with vecs := j.vecs ++ [(n, bs)] }
      else { j with vecs := j.vecs.map (fun v => if v.1 = n then (n, v.2 ++ bs) else v) })
  | .send id => t.modSend id (fun x => { x with data := x.data ++ bs })

/-- The reads the array makes in a cycle: fill chunks of 128 B and weight vectors (R38, R45). -/
def Job.reads (j : Job) (k : Nat) : List Access :=
  match MatCfg.ofWord j.cfg with
  | none => []
  | some c =>
    let fill := if j.issue ≤ k ∧ k < j.issue + c.fillCycles then
        [{ due := k, prio := 1, order := j.id, addr := j.fillAddr + 128 * (k - j.issue),
           len := min 128 (c.blockBytes - 128 * (k - j.issue)), write := false, data := [], flips := j.flips,
           use := .fill (128 * (k - j.issue)) }]
      else []
    let i := k - j.s0
    let wt := if j.started = true ∧ j.s0 ≤ k ∧ i < j.n * c.vecCycles then
        [{ due := k, prio := 2, order := j.id,
           addr := j.strmAddr + i / c.vecCycles * c.vecBytes + i % c.vecCycles * 32,
           len := c.vecBytes / c.vecCycles, write := false, data := [], flips := j.flips,
           use := .weight j.id (i / c.vecCycles) (i % c.vecCycles) }]
      else []
    fill ++ wt

/-- An arrival counter counts one (R124). -/
def Tile.acInc (t : Tile) (i : Nat) : Tile := { t with ac := mset 0 t.ac i (t.acReg i + 1) }

/-- The binding that a crate's stream matches: the lowest-numbered valid one (R123). -/
def Tile.bindingOf (t : Tile) (stream : Nat) : Option W64 :=
  ((List.range 64).map (fun i => mget 0 t.bind i)).find? (fun v => v.getLsbD 11 && bitsOf v.toNat 10 0 == stream)

/-- Where a received chunk is written: for a crate the ring slot that the binding in force gives, if one matches (R119, R123). -/
def Tile.chunkAddr (t : Tile) (c : Chunk) : Option Nat :=
  match c.done with
  | .crate stream seq => (t.bindingOf stream).map (fun v => bitsOf v.toNat 41 20 + 40 * (seq % 2 ^ bitsOf v.toNat 19 16))
  | _ => some c.addr

/-- The banks of a span of the larder (R67). -/
def spanBanks (a n : Nat) : List Nat := (List.range ((a + n + 15) / 16 - a / 16)).map (fun i => (a / 16 + i) % 16)

/-- The banks that the crossing port's receive writes in the cycle in progress. -/
def Tile.recvBanks (t : Tile) : List Nat :=
  match t.recv with
  | [] => []
  | c :: _ => match t.chunkAddr c with | some a => spanBanks a c.data.length | none => []

/-- The crossing port writes the oldest received chunk: it ranks first and never loses its banks (R69, R70, R73, R121).  A crate goes where
the binding in force puts it, and one that no valid binding matches is discarded and counted (R119, R123). -/
def Tile.takeChunk (t : Tile) : Tile :=
  match t.recv with
  | [] => t
  | c :: cs =>
    match t.chunkAddr c with
    | none => { t with recv := cs }.event .unbound
    | some a =>
      let t1 := { t with recv := cs, larder := writeBytes t.larder a c.data }
      let t2 := match c.done with
        | .more => t1
        | .count i => t1.acInc i
        | .stream id i => { t1.acInc i with scores := t1.scores.filter (fun y => y.stream != id || y.due.isSome) }
        | .crate stream _ => t1.acInc (match t.bindingOf stream with | some v => bitsOf v.toNat 15 12 | none => 0)
      if c.poison then t2.poisoned 6 else t2

/-- The reads of a cycle that win their banks, served from the larder before the cycle's writes (R68). -/
def Tile.serveReads (t : Tile) (rs : List Access) : Tile :=
  (rs.filter (fun a => !Access.loses rs [] a)).foldl (fun u a => let (bs, u') := u.readLarder a; u'.deliver a bs) t

/-- Exact partials with their POISON bits set: bit 125 of each 16 bytes (R91). -/
def poisonPartials (bs : List Byte) : List Byte :=
  (List.range bs.length).map (fun i => if i % 16 = 15 then bs.getD i 0 ||| 0x20 else bs.getD i 0)

/-- One write reaches the larder. -/
def Tile.storeAccess (t : Tile) (a : Access) : Tile :=
  { t with larder := writeBytes t.larder a.addr (if a.use = .save ∧ t.poison = true then poisonPartials a.data else a.data) }

/-- The writes of a cycle that win their banks against each other and against `taken`. -/
def Tile.serveWrites (t : Tile) (ws : List Access) (taken : List Nat) : Tile :=
  (ws.filter (fun a => !Access.loses ws taken a)).foldl Tile.storeAccess t

/-- The accesses of a cycle that lose a bank. -/
def losers (acc : List Access) (taken : List Nat) : List Access :=
  let rs := acc.filter (fun a => !a.write)
  let ws := acc.filter (fun a => a.write)
  rs.filter (Access.loses rs []) ++ ws.filter (Access.loses ws taken)

/-- Transfers of which a chunk is read in a cycle take the poison state as it stands in that cycle (R56). -/
def Tile.flagSends (t : Tile) (acc : List Access) : Tile :=
  if t.poison then
    acc.foldl (fun u a => match a.use with | .send id => u.modSend id (fun x => { x with poison := true }) | _ => u) t
  else t

/-- In timed code a losing read returns zeros, a losing write is discarded, and the tile is poisoned (R70). -/
def Tile.loseTimed (t : Tile) (lost : List Access) : Tile :=
  lost.foldl (fun u a =>
    let u1 := (u.poisoned 4).event .timingBreak
    if a.write then u1 else u1.deliver a (List.replicate a.len 0)) t

/-- In untimed code the tile stalls until the lost accesses complete, arbitrated again in each cycle; received data goes on being
written (R70). -/
def Tile.retry (t : Tile) (lost : List Access) : Nat → Tile
  | 0 => t
  | n + 1 =>
    match lost with
    | [] => t
    | _ =>
      let taken := t.recvBanks
      let t1 := Tile.serveReads { t with lag := t.lag + 1 } (lost.filter (fun a => !a.write))
      let t2 := (t1.takeChunk).serveWrites (lost.filter (fun a => a.write)) taken
      (t2.flagSends lost).retry (losers lost taken) n

/-- Whether the tile runs timed code: its last bundle was timed and it is not in Elreri mode (R76, R104). -/
def Tile.timedNow (t : Tile) : Bool :=
  !t.elreri && (match t.last with | some (unt, _) => !unt | none => false)

/-- A store read under the faults in its lanes (R44): one changed bit, data or check bit, is corrected and counted; with more, the
data is used as read.  A lane number of 32 or more names the side state of lane − 32, whose parity finds an odd number of changed
bits (R86). -/
def Tile.readEntry (t : Tile) (entry : Nat) (flips : List (Nat × BitVec 120)) : AccEntry × Tile :=
  let e := mget {} t.acc entry
  flips.foldl (fun (p : AccEntry × Tile) f =>
    let bits := flipCount f.2.toNat
    let l := p.1.lane (f.1 % 32)
    if 32 ≤ f.1 then
      let l' := { l with special := l.special ^^^ f.2.extractLsb' 0 2, inexact := l.inexact != f.2.getLsbD 2,
                         range := l.range != f.2.getLsbD 3 }
      ({ p.1 with lanes := mset {} p.1.lanes (f.1 % 32) l' }, if bits % 2 = 1 then p.2.poisoned 2 else p.2)
    else
      match bits with
      | 0 => p
      | 1 => (p.1, p.2.event .accCorrected)
      | _ => ({ p.1 with lanes := mset {} p.1.lanes f.1 { l with x := l.x ^^^ f.2.extractLsb' 0 112 } }, p.2.poisoned 2)) (e, t)

/-- An ASAVE reads its entry and schedules its two larder writes, which take the poison state as they are made (R43, R91, R118). -/
def Tile.saveMove (t : Tile) (m : AccMove) : Tile :=
  match m.save with
  | none => t
  | some addr =>
    let (e, t1) := t.readEntry m.entry m.flips
    let bs := entryBytes e false
    let w := fun (i : Nat) => (⟨m.due + 1 + i, 3, m.order, addr + 256 * i, 256, true, (bs.drop (256 * i)).take 256, [], .save⟩ : Access)
    { t1 with accesses := t1.accesses ++ [w 0, w 1] }

/-- An ALOAD or AADD writes the store (R92, R466).  DESIGN CHOICE (log entry 66): R421 names no cause bit for the load of a poisoned partial
or of mixed classes; the first counts as received poison, bit 6, and the second as a class clash, bit 3. -/
def Tile.loadMove (t : Tile) (m : AccMove) : Tile :=
  match m.save with
  | some _ => t
  | none =>
    let ps := readPartials m.partials
    let t0 := if ps.any (fun p => p.poison) then t.poisoned 6 else t
    if m.add then
      let (e, t1) := t0.readEntry m.entry m.flips
      let (e', clash) := aaddEntry e ps
      let t2 := { t1 with acc := mset {} t1.acc m.entry e' }
      if clash then t2.poisoned 3 else t2
    else
      let (e', clash) := aloadEntry ps
      let t2 := { t0 with acc := mset {} t0.acc m.entry e' }
      if clash then t2.poisoned 3 else t2

/-- One work cycle passes: store saves read, the banks serve the cycle's reads, the store takes the L slot's writes, the larder takes
received data and the cycle's writes, the store the array's writes (R43, R68, R70, R106), and counts of the scoreboard are released
(R136). -/
def Tile.passCycle (t : Tile) : Tile :=
  let k := t.cyc
  let moves := t.accMoves.filter (fun m => decide (m.due = k))
  let t1 := moves.foldl Tile.saveMove t
  let acc := t1.accesses.filter (fun a => decide (a.due = k)) ++ t1.jobs.flatMap (fun j => j.reads k)
  let t2 := { t1 with accesses := t1.accesses.filter (fun a => decide (a.due ≠ k)) }
  let taken := t2.recvBanks
  let lost := losers acc taken
  let t3 := t2.serveReads (acc.filter (fun a => !a.write))
  let t4 := if t3.timedNow then t3.loseTimed lost else t3
  let t5 := (t4.accMoves.filter (fun m => decide (m.due = k))).foldl Tile.loadMove t4
  let t6 := (t5.takeChunk).serveWrites (acc.filter (fun a => a.write)) taken
  let t7 := (t6.accWrites.foldl (fun u w => { u with acc := mset {} u.acc w.1 w.2 }) t6).flagSends acc
  let t8 := if t7.timedNow then t7 else t7.retry lost (lost.length + t7.recv.length + 1)
  { t8 with accMoves := t8.accMoves.filter (fun m => decide (m.due ≠ k)), accWrites := [],
            scores := t8.scores.filter (fun x => decide (x.due ≠ some k)), cyc := k + 1 }

/-- Everything received is written: the tile's held cycles in which it arrived have passed. -/
def Tile.drain (t : Tile) : Tile := t.recv.foldl (fun u _ => u.takeChunk) t

/-- The tile's position in its plan's work cycles. -/
def Tile.pos (t : Tile) : Nat := t.cyc + t.lag

/-- Whether an array or result event of the cycle in progress has still to occur (R45, R62): the tile's next bundle
issues after it. -/
def Tile.owes (t : Tile) : Bool :=
  t.results.any (fun r => decide (r.due ≤ t.cyc)) ||
  t.jobs.any (fun j =>
    match MatCfg.ofWord j.cfg with
    | none => false
    | some c =>
      (!j.started && decide (j.s0 ≤ t.cyc)) ||
      (decide (j.nextCmp < j.n) && decide (j.s0 + j.nextCmp * c.vecCycles + c.cmpOff ≤ t.cyc)) ||
      (match j.outs with
       | [] => false
       | o :: _ => decide (j.s0 + o.n * c.vecCycles + c.outOff ≤ t.cyc)))

/-- Nothing is scheduled in the tile. -/
def Tile.quiet (t : Tile) : Bool :=
  t.results.isEmpty && t.accesses.isEmpty && t.accMoves.isEmpty && t.jobs.isEmpty && t.scores.isEmpty &&
  t.accWrites.isEmpty && t.recv.isEmpty

/-- Pass up to `n` work cycles, stopping at the first in which an event of the tile has to occur. -/
def Tile.passCycles (t : Tile) : Nat → Tile
  | 0 => t
  | n + 1 =>
    if t.quiet then { t with cyc := t.cyc + (n + 1) }
    else if t.owes then t
    else (t.passCycle).passCycles n

/-- Whether issue is held (R129, R76). -/
def Tile.held (t : Tile) : Bool := t.hold != .free

/-- While issue is held the tile's cycles pass, up to the end of a delay, an event that has to occur, or the end of the
plan beat's work cycles at position `limit`. -/
def Tile.settle (limit : Nat) (t : Tile) : Tile :=
  match t.hold with
  | .free => t
  | .delay u => t.passCycles (min (u - t.cyc) (limit - t.pos))
  | _ => t.passCycles (limit - t.pos)

/-- Apply one result to its register (R106). -/
def Tile.write (t : Tile) : Target → Tile
  | .sreg i v => { t with s := mset 0 t.s i v }
  | .vreg i lanes v =>
    { t with v := mset 0 t.v i (mapLanes (fun l => if lanes.getLsbD l then laneOf v l else laneOf (t.vreg i) l)) }
  | .pred i b => if i = 0 then t else { t with p := if b then t.p ||| BitVec.ofNat 8 (2 ^ i) else t.p &&& ~~~(BitVec.ofNat 8 (2 ^ i)) }
  | .mcfg i v => { t with mc := mset 0 t.mc i v }
  | .acSub i n => { t with ac := mset 0 t.ac i (t.acReg i - n) }
  | .bind i v => { t with bind := mset 0 t.bind i v }
  | .pin v => { t with pin := v }

/-- The register that a result goes to, by number; a subtraction from an arrival counter is no write of a value. -/
def Target.register : Target → Option Nat
  | .sreg i _ => some i
  | .vreg i _ _ => some (32 + i)
  | .pred i _ => some (64 + i)
  | .mcfg i _ => some (72 + i)
  | .bind i _ => some (96 + i)
  | .pin _ => some 160
  | .acSub _ _ => none

/-- What a result writes, as a number. -/
def Target.value : Target → Nat
  | .sreg _ v => v.toNat
  | .vreg _ lanes v => lanes.toNat * 2 ^ 2048 + v.toNat
  | .pred _ b => b.toNat
  | .mcfg _ v => v.toNat
  | .bind _ v => v.toNat
  | .pin v => v.toNat
  | .acSub _ n => n.toNat

/-- The order of the results that one slot's operations bring to their registers in one cycle.  R106 orders the slots only: where two of
one slot meet in one register, `pick` says which of them is applied last (log entry 13). -/
def settleSlot (pick : Nat → List Nat → Nat) (l : List Target) : List Target :=
  (nub (l.filterMap Target.register)).foldl (fun acc r =>
    let mine := acc.filter (fun g => g.register == some r)
    match mine with
    | _ :: _ :: _ =>
      let n := pick r (mine.map Target.value) % mine.length
      acc.filter (fun g => g.register != some r) ++ mine.eraseIdx n ++ (mine.drop n).take 1
    | _ => acc) l

/-- The results due at a cycle, in the order of R106: V, L, X, C, then M and the array. -/
def Tile.dueResults (t : Tile) (pick : Nat → List Nat → Nat) (k : Nat) : List Target :=
  (List.range 6).flatMap (fun r => settleSlot pick ((t.results.filter (fun p => decide (p.due = k) && p.rank == r)).map (·.target)))

/-- Write every result due at one cycle. -/
def Tile.writeback (t : Tile) (pick : Nat → List Nat → Nat) (k : Nat) : Tile :=
  let u := (t.dueResults pick k).foldl Tile.write t
  { u with results := u.results.filter (fun p => decide (p.due ≠ k)) }

/-- The earliest cycle at which a result is due. -/
def Tile.nextResult (t : Tile) : Option Nat :=
  t.results.foldl (fun o p => match o with | none => some p.due | some d => some (min d p.due)) none

end Sys2Proof.Machine
end

