-- ==== Sys2Proof/Machine/Ops.lean ====
section
/-!
DEFINITION. The named operations over the state: setup registers, counters and status bits (R7 to R9, R437 to R439), the
geometry of tiles, regions, dies and partitions (R16 to R25), event records (R440), timing breaks (R180) and the access to
tiles, slip units, regions and contexts.
-/
namespace Sys2Proof.Machine

/-! ### Bits of a word -/

/-- The bits [hi:lo] of a word. -/
def getBits (v : W64) (hi lo : Nat) : Nat := bitsOf v.toNat hi lo

/-- A word with its bits [hi:lo] replaced. -/
def putBits (v : W64) (hi lo n : Nat) : W64 :=
  let m : W64 := BitVec.ofNat 64 ((2 ^ (hi + 1 - lo) - 1) * 2 ^ lo)
  (v &&& ~~~m) ||| (BitVec.ofNat 64 (n % 2 ^ (hi + 1 - lo) * 2 ^ lo))

/-! ### Setup registers -/

/-- Where a register's stored bits are kept: one copy for each function, or one for the device. -/
def regKey (fn off : Nat) : Nat :=
  match regRow off with
  | some r => if r.perFn then fn * 2 ^ 24 + off else off
  | none => fn * 2 ^ 24 + off

/-- The stored bits of a register. -/
def State.reg (s : State) (fn off : Nat) : W64 := mget (regReset off) s.regs (regKey fn off)

/-- Store the bits of a register. -/
def State.setReg (s : State) (fn off : Nat) (v : W64) : State :=
  { s with regs := mset (regReset off) s.regs (regKey fn off) v }

/-- A field of a register. -/
def State.field (s : State) (fn off hi lo : Nat) : Nat := getBits (s.reg fn off) hi lo

/-- Write a field of a register from inside the device. -/
def State.setField (s : State) (fn off hi lo n : Nat) : State := s.setReg fn off (putBits (s.reg fn off) hi lo n)

/-- Hardware sets a status bit. -/
def State.status (s : State) (fn off bit : Nat) : State := s.setField fn off bit bit 1

/-! ### Geometry -/

/-- The region of a tile numbered 64y + x (R16). -/
def regionOfTile (k : Nat) : Nat := k / 64 / 8 * 8 + k % 64 / 8

/-- The die of a region (R16, R17). -/
def dieOfRegion (r : Nat) : Nat := r % 8 / 4 + 2 * (r / 8 / 2)

/-- The 64 tiles of a region. -/
def tilesOfRegion (r : Nat) : List Nat :=
  (List.range 64).map (fun i => (r / 8 * 8 + i / 8) * 64 + r % 8 * 8 + i % 8)

/-- The partition count (R20); 1 before boot code has written it. -/
def State.nparts (s : State) : Nat := max 1 (s.field 0 0x28 3 0)

/-- Every partition function; none while they are withdrawn (R364). -/
def State.functions (s : State) : List Nat := if s.boot.presented then List.range s.nparts else []

/-- The partition of a die (R20). -/
def State.partOfDie (s : State) (d : Nat) : Nat := d / (8 / s.nparts)

/-- The partition, and so the slip unit and the function, of a region (R20, R173). -/
def State.partOfRegion (s : State) (r : Nat) : Nat := s.partOfDie (dieOfRegion r)

/-- The regions of a partition. -/
def State.regionsOf (s : State) (p : Nat) : List Nat :=
  (List.range 64).filter (fun r => s.partOfRegion r == p)

/-- Whether a region is enabled in the shape code (R24). -/
def State.enabled (s : State) (r : Nat) : Bool := (s.reg 0 0x10).getLsbD r

/-- The partition shape code (R25). -/
def State.partShape (s : State) (p : Nat) : BitVec 64 :=
  (s.regionsOf p).foldl (fun m r => if s.enabled r then m ||| BitVec.ofNat 64 (2 ^ r) else m) 0

/-- Domain mode (R21). -/
def State.domainMode (s : State) : Bool := s.dom.isSome

/-! ### Parts of the state -/

def State.tile (s : State) (k : Nat) : Tile := mget Tile.reset s.tiles k

def State.setTile (s : State) (k : Nat) (t : Tile) : State := { s with tiles := mset Tile.reset s.tiles k t }

def State.unit (s : State) (u : Nat) : SlipUnit := mget {} s.clk.units u

def State.setUnit (s : State) (u : Nat) (x : SlipUnit) : State :=
  { s with clk := { s.clk with units := mset {} s.clk.units u x } }

def State.region (s : State) (r : Nat) : Region := mget {} s.clk.regions r

def State.setRegion (s : State) (r : Nat) (x : Region) : State :=
  { s with clk := { s.clk with regions := mset {} s.clk.regions r x } }

def State.ctx (s : State) (c : Nat) : Ctx := mget {} s.ctxs c

def State.setCtx (s : State) (c : Nat) (x : Ctx) : State := { s with ctxs := mset {} s.ctxs c x }

/-- Write to the world outside. -/
def State.emit (s : State) (o : Output) : State := { s with out := s.out ++ [o] }

/-- The slip unit of a region: its partition, or the device in domain mode, where the partition count is 1 (R21, R173). -/
def State.unitOf (s : State) (r : Nat) : Nat := s.partOfRegion r

/-- The running contexts of a slip unit. -/
def State.running (s : State) (u : Nat) : List Nat :=
  s.ctxs.filterMap (fun p => if p.1 / 256 = u ∧ p.2.phase = .running then some p.1 else none)

/-- Plan beats a context's plan has started: the number of the plan beat in progress is one less (R162). -/
def State.planBeats (s : State) (c : Nat) : Nat :=
  (s.unit (c / 256)).started - (s.ctx c).step.beat0

/-- The number of the plan beat in progress of a context's plan. -/
def State.planBeat (s : State) (c : Nat) : Nat := s.planBeats c - 1

/-- The plan-relative step in progress and the context step number (R224, R298). -/
def State.stepNo (s : State) (c : Nat) : Nat := (s.ctx c).steps

/-- B and S of a slip unit in cycles (R160, R163). -/
def SlipUnit.beat (u : SlipUnit) : Nat := 2 ^ u.k
def SlipUnit.work (u : SlipUnit) : Nat := u.beat - u.slack

/-- The arithmetic divider of an operating point (R181). -/
def divider : Nat → Nat
  | 0 => 4 | 1 => 5 | 2 => 8 | _ => 10

/-- D (R157). -/
def State.div (s : State) : Nat := divider s.clk.op

/-! ### Event records (R440) -/

/-- Count a record that a full ring drops.  At the maximum the CNT_SATURATED record is itself dropped, for the ring is full, and the count
cannot rise: so only SATURATED is set beside OVF (R437, R440). -/
def State.bumpQuiet (s : State) (fn off hi : Nat) : State :=
  let v := s.field fn off hi 0
  let s1 := s.setField fn off hi 0 (satAdd (hi + 1) v 1)
  if v + 1 = 2 ^ (hi + 1) - 1 then (s1.setField fn off 63 63 1).status fn 0x60000 4 else s1

/-- Write one event record to a function's ring, or drop it when the ring is full. -/
def State.putRecord (s : State) (fn : Nat) (r : List Byte) : State :=
  if s.field fn 0x60008 0 0 = 0 then s
  else
    let size := 2 ^ s.field fn 0x60008 5 1
    let unread := mget 0 s.faults.evtUnread fn
    if unread ≥ size then (s.bumpQuiet fn 0x60020 31).status fn 0x60000 0
    else
      let tail := s.field fn 0x60018 31 16
      let phase := s.field fn 0x60018 32 32
      let bytes := r.take 2 ++ [r.getD 2 0 ||| BitVec.ofNat 8 phase] ++ r.drop 3
      let s1 := s.setField fn 0x60018 31 16 ((tail + 1) % size)
      let s2 := if tail + 1 = size then s1.setField fn 0x60018 32 32 (1 - phase) else s1
      let f := { s2.faults with evtUnread := mset 0 s2.faults.evtUnread fn (unread + 1),
                                evtDue := if s2.faults.evtDue.contains fn then s2.faults.evtDue else s2.faults.evtDue ++ [fn] }
      State.emit { s2 with faults := f } (.eventRec fn tail bytes)

/-- Where an event happened: a region, a port, or neither. -/
inductive Place where
  | device
  | region (r : Nat)
  | port (p : Nat)
  deriving DecidableEq, Repr

/-- Raise an event to the functions named (R22, R440). -/
def State.event (s : State) (fns : List Nat) (code : Nat) (pl : Place) (d0 d1 : Nat) : State :=
  let dev := s.field 0 0x20 15 0
  let body := fun (fl die rg port : Nat) =>
    leBytes 2 code ++ leBytes 1 fl ++ leBytes 1 die ++ leBytes 1 rg ++ leBytes 1 port ++ leBytes 2 dev
      ++ leBytes 8 s.clk.tick ++ leBytes 8 d0 ++ leBytes 8 d1
  let full := match pl with
    | .device => body 0 0 0 0
    | .region r => if s.domainMode then body 4 0 r 0 else body 6 (dieOfRegion r) r 0
    | .port p => body 8 0 0 p
  fns.foldl (fun u fn => u.putRecord fn full) s

/-- Raise an event that concerns the whole device. -/
def State.eventAll (s : State) (code : Nat) (pl : Place) (d0 d1 : Nat) : State := s.event s.functions code pl d0 d1

/-- The region of a register that stands once for each region: BEAT_RSTATn and BEAT_ROVRn, MEM_LCEn, and the region counters of CNT. -/
def regionOfReg (off : Nat) : Option Nat :=
  if 0x31000 ≤ off ∧ off < 0x31400 then some ((off - 0x31000) / 16)
  else if 0x50600 ≤ off ∧ off < 0x50800 then some ((off - 0x50600) / 8)
  else if 0x81000 ≤ off ∧ off < 0x81800 then some ((off - 0x81000) / 32)
  else none

/-- The functions whom a counter concerns: its own for a counter of a function, the region's for one of a region, the partition's for one of
a store port that is assigned to it, and every one for the device's others (R440). -/
def State.counterFns (s : State) (fn off : Nat) : List Nat :=
  match regRow off with
  | none => [fn]
  | some r =>
    if r.perFn then [fn]
    else match regionOfReg off with
      | some g => s.functions.filter (fun p => p == s.partOfRegion g)
      | none =>
        if 0x40980 ≤ off ∧ off < 0x40A00 ∧ s.domainMode = false then (mfind s.link.stores ((off - 0x40400) / 64)).toList else s.functions

/-- Increment a counter field [hi:lo] by `n`: it saturates, sets OVF and, when it reaches its maximum, sets SATURATED and raises CNT_SATURATED
for the functions whom it concerns (R437, R440). -/
def State.bumpAt (s : State) (fn off hi lo n : Nat) : State :=
  let v := s.field fn off hi lo
  let top := 2 ^ (hi + 1 - lo) - 1
  let s1 := s.setField fn off hi lo (min (v + n) top)
  if v < top ∧ v + n ≥ top then
    ((s.counterFns fn off).foldl (fun (u : State) f => u.status f 0x60000 4) (s1.setField fn off 63 63 1)).event (s.counterFns fn off)
      0x0502 .device off 0
  else s1

/-- Increment a counter whose field starts at bit 0. -/
def State.bump (s : State) (fn off hi : Nat) : State := s.bumpAt fn off hi 0 1

/-! ### Timing breaks (R180) -/

def BreakKind.code : BreakKind → Nat
  | .timingBreak => 0x0201 | .linkLate => 0x0202 | .vaultLate => 0x0203 | .planDrift => 0x0204

/-- Mark the step in progress of every running plan of a slip unit as failed; the first cause stands (R180). -/
def State.failSteps (s : State) (u cause : Nat) : State :=
  (s.running u).foldl (fun w c =>
    let x := w.ctx c
    w.setCtx c { x with step := { x.step with failed := some (x.step.failed.getD cause) } }) s

/-- Raise a timing break in a slip unit: the step in progress is marked failed, the break takes effect at a slot boundary
and is recorded (R180). -/
def State.raiseBreak (s : State) (u : Nat) (k : BreakKind) : State :=
  match s.running u with
  | [] => s
  | c :: _ =>
    let x := s.unit u
    let s1 := (s.setUnit u { x with breaks := x.breaks ++ [k] }).failSteps u (k.code % 256)
    let s2 := if k = .planDrift then s1.status u 0x30008 2 else s1
    s2.event [u] k.code .device (s.stepNo c) (s.planBeat c)

/-! ### Windows and tile events (R419, R420, R44, R72, R89, R94) -/

/-- Ticks in a second, an hour and a day of the 7.0 GHz root clock (R11). -/
def ticksPerSecond : Nat := 7000000000

/-- The times of a window that lie within `w` ticks of now, with now added. -/
def inWindow (now w : Nat) (ts : List Nat) : List Nat := (ts.filter (fun t => decide (now ≤ t + w))) ++ [now]

/-- A repair entry in the layout of R382. -/
def repairEntry (tile kind row bank : Nat) : W64 :=
  BitVec.ofNat 64 (tile % 64 + tile / 64 * 2 ^ 6 + kind * 2 ^ 12 + row * 2 ^ 14 + bank * 2 ^ 22 + 2 ^ 26)

/-- Record a pending repair in the retained record (R426). -/
def State.addRepair (s : State) (e : W64) : State :=
  { s with faults := { s.faults with repairs := s.faults.repairs ++ [e] } }

/-- A bank-row retirement becomes pending, unless it already is; a fifth in one bank, those fused among them, is a tile fault instead,
on which the step-end scan acts (R58, R72, R420; log entry 65). -/
def State.pendRow (s : State) (k bank row : Nat) : State :=
  let key := (k * 16 + bank, row)
  if s.faults.pendingRows.contains key then s
  else if 4 ≤ (s.faults.pendingRows.filter (fun q => q.1 == k * 16 + bank)).length then
    (if s.faults.tileFaults.contains k then s else { s with faults := { s.faults with tileFaults := s.faults.tileFaults ++ [k] } })
  else
    let s1 := { s with faults := { s.faults with pendingRows := s.faults.pendingRows ++ [key] } }
    let rg := regionOfTile k
    (s1.addRepair (repairEntry k 2 row bank)).event [s.partOfRegion rg] 0x0105 (.region rg)
      k (bank + row * 16)

/-- A corrected larder error: counted for the region and in its bank's window; the sixteenth in 24 h makes rows pending. -/
def State.larderCorrected (s : State) (k bank row : Nat) : State :=
  let rg := regionOfTile k
  let s1 := s.bump (s.partOfRegion rg) (0x50600 + 8 * rg) 31
  let now := s.clk.tick
  let day := 86400 * ticksPerSecond
  let h := ((mget [] s1.faults.bankErrs (k * 16 + bank)).filter (fun e => decide (now ≤ e.1 + day))) ++ [(now, row)]
  let lasting := decide (h.length ≥ 16)
  let s2 := { s1 with faults := { s1.faults with bankErrs := mset [] s1.faults.bankErrs (k * 16 + bank) (if lasting then [] else h) } }
  if lasting then
    let rows := h.map (·.2)
    let others := (rows.filter (fun r => decide (r ≠ row) && decide (2 ≤ rows.count r))).foldl
      (fun acc r => if acc.contains r then acc else acc ++ [r]) []
    (row :: others).foldl (fun u r => u.pendRow k bank r) s2
  else s2

/-- What the device does with one event of a tile. -/
def State.tileEvent (s : State) (k : Nat) (e : TileEvent) : State :=
  let rg := regionOfTile k
  let u := s.unitOf rg
  match e with
  | .timingBreak => s.raiseBreak u .timingBreak
  | .linkLate => s.raiseBreak u .linkLate
  | .larderCorrected bank row => s.larderCorrected k bank row
  | .larderUncorrected bank row => s.pendRow k bank row
  | .accCorrected =>
    let s1 := s.bump u (0x81008 + 32 * rg) 31
    let h := inWindow s.clk.tick (86400 * ticksPerSecond) (mget [] s1.faults.accErrs k)
    { s1 with faults := { s1.faults with accErrs := mset [] s1.faults.accErrs k h } }
  | .mismatch =>
    if s.faults.mismatchedNow.contains k then s
    else { s with faults := { s.faults with mismatchedNow := s.faults.mismatchedNow ++ [k] } }
  | .unchecked => s.bump u (0x81010 + 32 * rg) 47
  | .accRange => s.bump u (0x81018 + 32 * rg) 47
  | .unbound => s.bump 0 0x40018 47
  | .stepMark _ => s

/-- Store a tile and report the events it has gathered. -/
def State.putTile (s : State) (k : Nat) (t : Tile) : State :=
  t.events.foldl (fun u e => u.tileEvent k e) (s.setTile k { t with events := [] })

/-- Change a tile. -/
def State.modTile (s : State) (k : Nat) (f : Tile → Tile) : State := s.putTile k (f (s.tile k))

/-- The context whose plan a tile's region is bound to. -/
def State.ctxOfTile (s : State) (k : Nat) : Option Nat := (s.region (regionOfTile k)).bound

/-- Whether a region runs a plan beat now. -/
def State.regionRuns (s : State) (r : Nat) : Bool :=
  let u := s.unit (s.unitOf r)
  u.inBeat && !u.stopped && !(s.region r).done

/-- The position at which the tile's work cycles of the plan beat in progress end (R163, R164). -/
def State.tileLimit (s : State) (k : Nat) : Nat :=
  match s.ctxOfTile k with
  | none => 0
  | some c => s.planBeats c * (s.unit (s.unitOf (regionOfTile k))).work

/-- Change a tile and let its held cycles pass. -/
def State.modTileSettle (s : State) (k : Nat) (f : Tile → Tile) : State :=
  s.putTile k ((f (s.tile k)).settle (s.tileLimit k))

/-- The next of the free values that the manual leaves without a stated result; `purpose` says which it is. -/
def State.drawFree (s : State) (purpose : Nat) : Nat × State :=
  (Config.unstated purpose s.free, { s with free := s.free + 1 })

/-- The next draw of the entropy source. -/
def State.drawEntropy (s : State) : Nat × State := (Config.entropy s.free, { s with free := s.free + 1 })

/-- The order in which the rails come up; they fall in the reverse order (R451, R452). -/
def railOrder : List Nat := [0, 2, 1, 3, 4, 5, 6, 7]

/-- One rail moves: while the module comes up the next rail reaches regulation, and PWRGD is asserted with the last; after a shutdown the
last of those that are up falls (R451, R452; log entry 42). -/
def State.moveRail (s : State) : State :=
  if s.power.rising then
    let up := railOrder.take (s.power.rails.length + 1)
    { s with power := { s.power with rails := up, good := decide (up = railOrder), rising := decide (up ≠ railOrder) } }
  else if s.power.good then s
  else { s with power := { s.power with rails := s.power.rails.dropLast } }

/-- The block idles for one tick: the tick count goes on while the root clock runs, and a rail that is to rise or to fall does so (log
entries 2 and 42). -/
def State.idle (s : State) : State :=
  (if s.clk.locked then { s with clk := { s.clk with tick := satAdd 64 s.clk.tick 1 } } else s).moveRail

end Sys2Proof.Machine
end

