-- ==== Sys2Proof/Machine/Cellar.lean ====
section
/-!
DEFINITION. The cellar as tiles and hub engines reach it: interleave, extents and ranges, transfers and poison marks
(R193, R199, R201 to R204, R206 to R208).
-/
namespace Sys2Proof.Machine

/-- Pages of one site: 96 GiB of 4 KiB pages. -/
def pagesPerSite : Nat := 96 * 2 ^ 18

/-- The present sites in ascending order (R15, R198). -/
def State.sites (s : State) : List Nat := (List.range 12).filter (fun i => s.field 0 0x18 31 20 / 2 ^ i % 2 == 1)

/-- Cellar capacity in bytes (R199). -/
def State.cellarBytes (s : State) : Nat := 96 * 2 ^ 30 * s.sites.length

/-- The site and the page within it of a cellar page (R199). -/
def State.placePage (s : State) (n : Nat) : Nat × Nat :=
  let all := s.sites
  if s.field 0 0x50000 0 0 = 0 then (all.getD (n % all.length) 0, n / all.length)
  else
    let h := all.length / 2 * pagesPerSite
    let a := all.filter (fun i => decide (i ≤ 5))
    let b := all.filter (fun i => decide (5 < i))
    if n < h then (a.getD (n % a.length) 0, n / a.length) else (b.getD ((n - h) % b.length) 0, (n - h) / b.length)

/-- The cellar page of a site's page (R199). -/
def State.cellarPage (s : State) (site page : Nat) : Nat :=
  let all := s.sites
  let at_ := fun (l : List Nat) => ((findIdx? (· == site) l 0).map (·.1)).getD 0
  if s.field 0 0x50000 0 0 = 0 then page * all.length + at_ all
  else
    let a := all.filter (fun i => decide (i ≤ 5))
    let b := all.filter (fun i => decide (5 < i))
    if site ≤ 5 then page * a.length + at_ a else all.length / 2 * pagesPerSite + page * b.length + at_ b

def State.site (s : State) (i : Nat) : Site := mget {} s.mem.sites i

def State.setSite (s : State) (i : Nat) (x : Site) : State :=
  { s with mem := { s.mem with sites := mset {} s.mem.sites i x } }

/-- Whether a span of cellar addresses lies in one cellar range of a partition (R206, R208). -/
def State.inRanges (s : State) (p a len : Nat) : Bool :=
  (List.range 4).any (fun i =>
    let b := s.field p (0x50008 + 8 * i) 10 0 * 2 ^ 30
    let n := s.field p (0x50008 + 8 * i) 21 11 * 2 ^ 30
    decide (n ≠ 0) && decide (b ≤ a) && decide (a + len ≤ b + n))

/-- The outcome of the check of an access of `len` bytes at context address `a` (R208). -/
inductive ExtentCheck where
  | ok (addr : Nat)
  | extent
  | protect
  deriving DecidableEq, Repr

/-- Check an access against a context's extent and its partition's ranges (R208). -/
def State.checkExtent (s : State) (c : Option Nat) (a len : Nat) : ExtentCheck :=
  match c with
  | none => .extent
  | some k =>
    let x := s.ctx k
    if x.phase = .free ∨ a + len > x.params.extentBytes then .extent
    else if s.inRanges (k / 256) (x.base + a) len then .ok (x.base + a) else .protect

/-- Record an extent or protection fault (R208). -/
def State.extentFault (s : State) (p : Nat) (c : Option Nat) (a : Nat) (protect : Bool) : State :=
  (s.status p 0x50030 (if protect then 1 else 0)).event [p] (if protect then 0x0302 else 0x0301) .device (c.getD 0 % 256) a

/-- Whether a 64-byte transfer carries the poison marker (R202). -/
def State.marked (s : State) (n : Nat) : Bool := mget false s.mem.marks n

/-- The transfers that cover a span. -/
def transfersOf (a len : Nat) : List Nat := (List.range ((a + len + 63) / 64 - a / 64)).map (fun i => a / 64 + i)

/-- A write to a span overwrites the complete staging destinations that it meets (R422). -/
def State.touchStaging (s : State) (a n : Nat) : List StageFetch :=
  s.mem.staging.map (fun e =>
    let d := (s.ctx e.ctx).base + e.cellar
    if e.written = e.pages ∧ d < a + n ∧ a < d + 4096 * e.pages then { e with intact := false } else e)

/-- Write cellar bytes; a write that carries poison marks its transfers, and a transfer stays marked until all of it is overwritten (R202;
log entry 54). -/
def State.cellarWrite (s : State) (a : Nat) (bs : List Byte) (poison : Bool) : State :=
  let part := fun (n : Nat) => decide (64 * n < a) || decide (a + bs.length < 64 * n + 64)
  let marks := (transfersOf a bs.length).foldl (fun m n => mset false m n (poison || (part n && s.marked n))) s.mem.marks
  { s with mem := { s.mem with cellar := writeBytes s.mem.cellar a bs, marks := marks, staging := s.touchStaging a bs.length } }

/-- Read cellar bytes and whether any transfer delivers the poison flag (R201). -/
def State.cellarRead (s : State) (a len : Nat) : List Byte × Bool :=
  (readBytes s.mem.cellar a len, (transfersOf a len).any s.marked)

/-- The bytes at a context address as they stand, and whether they carry the poison flag: what a hub engine's read delivers where no
fault is taken and no decoder finds anything (R208; see `State.hubRead`). -/
def State.ctxRead (s : State) (c a len : Nat) : List Byte × Bool :=
  match s.checkExtent (some c) a len with
  | .ok ad => s.cellarRead ad len
  | _ => (List.replicate len 0, true)

/-- The context-relative write that a hub engine makes (R208): discarded on a fault. -/
def State.ctxWrite (s : State) (c a : Nat) (bs : List Byte) : State :=
  match s.checkExtent (some c) a bs.length with
  | .ok ad => s.cellarWrite ad bs false
  | .extent => s.extentFault (c / 256) (some c) a false
  | .protect => s.extentFault (c / 256) (some c) a true

/-- A span without the part of it that another covers. -/
def OldCipher.without (o : OldCipher) (a len : Nat) : List OldCipher :=
  ([⟨o.base, min o.bytes (a - o.base), o.keys⟩, ⟨max o.base (a + len), o.base + o.bytes - max o.base (a + len), o.keys⟩] : List OldCipher).filter
    (fun p => p.bytes != 0)

/-- Set a span of the cellar to zeros: the listed bytes and marks of the span go. -/
def State.cellarZero (s : State) (a len : Nat) : State :=
  { s with mem := { s.mem with
      cellar := s.mem.cellar.filter (fun p => decide (p.1 < a) || decide (a + len ≤ p.1)),
      marks := s.mem.marks.filter (fun p => decide (p.1 < a / 64) || decide ((a + len) / 64 ≤ p.1)),
      stale := s.mem.stale.flatMap (fun o => o.without a len) } }

/-- The extent of a context that ends, or whose keys a warm boot destroys, keeps the ciphertext it holds; one that was not yet zeroed holds
none of its own (R207, R215, R275). -/
def State.leaveCipher (s : State) (c : Nat) : State :=
  let x := s.ctx c
  if x.phase = .free ∨ x.phase = .creating then s
  else { s with mem := { s.mem with stale := s.mem.stale ++ [⟨x.base, x.params.extentBytes, (mget {} s.mem.keys x.keySlot).keys⟩] } }

/-- Start the retirement of a page, whose status bits stand in the copy of every partition's function, also before boot presents them: it
takes the next remap page and its copy starts; on a full list nothing more is retired (R203, R204; log entry 54). -/
def State.retirePage (s : State) (site page : Nat) : State :=
  let x := s.site site
  if x.retired.contains page || decide (4096 ≤ x.retired.length) then s
  else
    let n := x.retired.length + 1
    let s1 := s.setSite site { x with retired := x.retired ++ [page], history := x.history.filter (fun h => decide (h.1 ≠ page)) }
    let s2 := { s1 with mem := { s1.mem with copies := s1.mem.copies ++ [PageCopy.mk site page] } }
    let s3 := s2.setField 0 (0x50810 + 32 * site) 12 0 n
    let s4 := ((List.range s3.nparts).foldl (fun (u : State) f => u.status f 0x50030 3) s3).eventAll 0x0303 .device site (s.cellarPage site page)
    if n = 4096 then
      let s5 := s4.setField 0 (0x50810 + 32 * site) 13 13 1
      ((List.range s5.nparts).foldl (fun (u : State) f => u.status f 0x50030 4) s5).eventAll 0x0304 .device site (s.cellarPage site page)
    else s4

/-- A read finds one symbol in error (R201, R203, R420): counted for the site; the sixty-fourth in an hour retires pages, and the window
is cleared (R419).  The history of the last 64 symbols is kept beside it. -/
def State.cellarCorrected (s : State) (addr : Nat) : State :=
  let (site, page) := s.placePage (addr / 4096)
  let s1 := s.bump 0 (0x50800 + 32 * site) 47
  let x := s1.site site
  let now := s.clk.tick
  let hist := ((page, now) :: x.history).take 64
  let recent := inWindow now (3600 * ticksPerSecond) x.window
  if recent.length ≥ 64 then
    let pages := hist.map (·.1)
    let twice := (pages.filter (fun p => decide (p ≠ page) && decide (2 ≤ pages.count p))).foldl
      (fun acc p => if acc.contains p then acc else acc ++ [p]) []
    (page :: twice).foldl (fun u p => u.retirePage site p) (s1.setSite site { x with history := hist, window := [] })
  else s1.setSite site { x with history := hist, window := recent }

/-- A read is uncorrectable (R201, R203): counted, reported, and its page retired at once. -/
def State.cellarUncorrectable (s : State) (p addr : Nat) : State :=
  let (site, page) := s.placePage (addr / 4096)
  let s1 := ((s.bump 0 (0x50808 + 32 * site) 31).status p 0x50030 2).eventAll 0x0305 .device site (addr / 4096)
  s1.retirePage site page

/-- What the decoder finds in one transfer (R201): one symbol in error, or more, with the data as read. -/
abbrev SymFault := Nat × Option (List Byte)

/-- The offsets of a read whose transfers deliver the poison flag: marked, or uncorrectable (R201, R202). -/
def State.badSpans (s : State) (a len : Nat) (faults : List SymFault) : List (Nat × Nat) :=
  ((transfersOf a len).filter (fun n => s.marked n || faults.any (fun f => f.1 == n && f.2.isSome))).map (fun n =>
    (64 * n - a, min len (64 * n + 64 - a)))

/-- The delivered bytes of a read under the decoder's findings, the poison flag, and the counts (R201). -/
def State.decodeRead (s : State) (p a len : Nat) (faults : List SymFault) : List Byte × Bool × State :=
  let (bytes, poison) := s.cellarRead a len
  let here := faults.filter (fun f => (transfersOf a len).contains f.1)
  here.foldl (fun (r : List Byte × Bool × State) f =>
    if f.2 = none ∧ s.marked f.1 = false then (r.1, r.2.1, r.2.2.cellarCorrected (64 * f.1))
    else
      let raw := f.2.getD []
      let bs := (List.range len).map (fun i =>
        let ad := a + i
        if 64 * f.1 ≤ ad ∧ ad < 64 * f.1 + 64 then raw.getD (ad - 64 * f.1) (r.1.getD i 0) else r.1.getD i 0)
      (bs, true, r.2.2.cellarUncorrectable p (64 * f.1))) (bytes, poison, s)

/-- The context-relative read that a hub engine makes, under the decoder's findings: the bytes, the offsets that carry the poison flag, and
the counts; a fault delivers zeros with the flag, sets MEM_STATUS and raises its event (R201, R202, R208). -/
def State.hubRead (s : State) (c a len : Nat) (faults : List SymFault) : List Byte × List (Nat × Nat) × State :=
  match s.checkExtent (some c) a len with
  | .ok ad =>
    let (bs, _, s1) := s.decodeRead (c / 256) ad len faults
    (bs, s.badSpans ad len faults, s1)
  | .extent => (List.replicate len 0, [(0, len)], s.extentFault (c / 256) (some c) a false)
  | .protect => (List.replicate len 0, [(0, len)], s.extentFault (c / 256) (some c) a true)

end Sys2Proof.Machine
end

