-- ==== Sys2Proof/Machine/TileIssue.lean ====
section
/-!
DEFINITION. Bundle issue (R103 to R110, R126 to R131, R134, R136, R137, R140): the lookup, the issue of one slot, the end of
a bundle, and the result write-back.
-/
namespace Sys2Proof.Machine

/-- The opcodes each slot's table defines (R111 to R125). -/
def definedOps : Slot → List Nat
  | .m => [0x01, 0x02]
  | .v => [0x01, 0x02, 0x03, 0x04, 0x05, 0x06, 0x07, 0x08, 0x09, 0x0A, 0x0B, 0x0C, 0x0D, 0x10, 0x11, 0x12, 0x13, 0x14,
           0x18, 0x19, 0x1A, 0x1B, 0x1C, 0x1D, 0x1E, 0x1F, 0x20, 0x24, 0x25, 0x28, 0x29, 0x2A, 0x2B, 0x2C, 0x2D, 0x2E,
           0x30, 0x31, 0x34]
  | .l => [0x01, 0x02, 0x03, 0x04, 0x05, 0x06, 0x07, 0x08, 0x09]
  | .x => [0x01, 0x02, 0x03, 0x04]
  | .c => [0x01, 0x02, 0x03, 0x04, 0x05, 0x06, 0x07, 0x08, 0x09, 0x0A, 0x0B, 0x10, 0x11, 0x12, 0x13, 0x14, 0x15, 0x16,
           0x17, 0x18, 0x19, 0x1A, 0x1B, 0x20, 0x21, 0x22, 0x23]

/-- All five slots. -/
def allSlots : List Slot := [.m, .v, .l, .x, .c]

/-- The slot a number names. -/
def slotOfNat : Nat → Slot
  | 0 => .m | 1 => .v | 2 => .l | 3 => .x | _ => .c

/-- Whether a tile may issue: it has a program, nothing holds it, its array and result events of the cycle have occurred,
its region runs the plan beat in progress, and work cycles of that beat remain (R105, R129, R163, R180, R425). -/
def State.mayIssue (s : State) (k : Nat) : Bool :=
  let t := s.tile k
  let rg := regionOfTile k
  let u := s.unit (s.unitOf rg)
  t.code.isSome && t.hold == .free && !t.owes && u.inBeat && !u.stopped && !(s.region rg).done && !(s.region rg).fenced
    && decide (t.pos < s.tileLimit k)

/-- What a lookup of the next bundle finds (R76). -/
inductive Lookup where
  | overrun
  | hit (line : Nat) (b : BitVec 256)
  | miss
  deriving DecidableEq, Repr

/-- The line that holds a bundle address, valid or being filled; of two with one tag, the lowest-numbered (log entry 55). -/
def Tile.findLine (t : Tile) (a : Nat) (valid : Bool) : Option (Nat × Line) :=
  t.lines.find? (fun p => decide (p.2.tag = a / 64 * 64) && (if valid then p.2.valid else p.2.filling))

/-- Look up the next bundle.  A bundle is looked up once: the slots of the bundle in progress issue in the cycle of its first slot
(R76, R105), whatever a CFETCH among them does to its line. -/
def Tile.lookup (t : Tile) : Lookup :=
  match t.code with
  | none => .overrun
  | some (bundles, _) =>
    if !t.issued.isEmpty then .hit 64 t.cur
    else if t.pc ≥ bundles then .overrun
    else match t.findLine t.pc true with
      | some (i, l) => .hit i (mget 0 l.bundles (t.pc % 64))
      | none => .miss

/-- Whether a lookup follows the timed rule: the bundle issued last was timed (R76). -/
def Tile.timedRule (t : Tile) : Bool := t.timedNow

/-- Whether the bundle itself is timed: an Elreri plan ignores UNT (R104). -/
def Tile.bundleTimed (t : Tile) (b : BitVec 256) : Bool := !t.elreri && !bundleUnt b

/-- The line an untimed miss fills: the first unpinned one at or after the miss pointer; Elreri ignores PIN (R134, R135). -/
def Tile.missLine (t : Tile) : Option Nat :=
  ((List.range 64).map (fun i => (t.missPtr + i) % 64)).find? (fun i => t.elreri || !t.pin.getLsbD i)

/-- Start the fill of a line (R75, R132).  DESIGN CHOICE (log entry 74): an earlier fill of the line that is still in progress is dropped. -/
def Tile.startFill (t : Tile) (line addr : Nat) : Tile :=
  { t with lines := mput t.lines line { valid := false, filling := true, tag := addr / 64 * 64, bundles := [] } }

/-- Whether a bundle is illegal as a whole (R104, R110, R128). -/
def Tile.bundleIllegal (t : Tile) (b : BitVec 256) : Bool :=
  let timed := t.bundleTimed b
  let c := slotOf b .c
  bundleReserved b != 0 ||
  (timed && t.last == some (true, false)) ||
  (timed && [0x01, 0x02, 0x03, 0x05, 0x06, 0x07, 0x08].contains (opOf c) && predField c != 0)

/-- The value an ACHK compares with (R131). -/
def Tile.achkValue (t : Tile) (w : SlotWord) : BitVec 32 :=
  if flag w 32 then (t.sreg (fld w 31 27)).setWidth 32 else BitVec.ofNat 32 (fld w 15 0)

/-- Whether an ACHK's counter has reached its value. -/
def Tile.achkPasses (t : Tile) (w : SlotWord) : Bool := decide ((t.achkValue w).toNat ≤ (t.acReg (fld w 37 34)).toNat)

/-- The cycles an injecting operation occupies the crossing port, or none (R120). -/
def portCycles (slot : Slot) (w : SlotWord) : Option Nat :=
  match slot, opOf w with
  | .x, 0x01 => some ((16 * (fld w 22 13 + 1) + 127) / 128)
  | .x, 0x02 => some (fld w 27 20 + 1)
  | .x, 0x03 => some ((16 * (fld w 17 8 + 1) + 127) / 128)
  | .l, 0x09 => some ((fld w 27 16 + 2) / 2)
  | _, _ => none

/-- Whether an injecting operation that issues now would overlap an earlier occupancy (R120). -/
def Tile.portBusy (t : Tile) : Bool := decide (t.cyc + 1 < t.portFree)

/-! ### Legality of the operations that access the larder (R107, R115, R118, R119) -/

/-- Whether a matrix instruction that issues now would overlap an earlier one (R47). -/
def Tile.overlaps (t : Tile) (c : MatCfg) : Bool :=
  t.jobs.any (fun j =>
    match MatCfg.ofWord j.cfg with
    | none => false
    | some jc => decide (t.cyc < j.s0) || decide (t.cyc + c.fillCycles + 3 < j.s0 + j.n * jc.vecCycles))

/-- Whether a matrix instruction delivers rows to a destination (R40). -/
def MatCfg.delivers (c : MatCfg) : Bool := c.mode == .direct || c.mode == .addOut

/-- An M-slot address with its bits [3:0] taken as zero (R115). -/
def Tile.blockAddr (t : Tile) (w : SlotWord) (hi lo : Nat) : Nat := (t.sreg (fld w hi lo)).toNat / 16 * 16

/-- Whether an MMUL performs its fill and stream: a legal configuration (R114), N and BASE in range (R39, R40), no overlap
(R47), addresses in the larder (R107), DST a multiple of 8 where it is used (R115). -/
def Tile.mmulRuns (t : Tile) (w : SlotWord) : Bool :=
  match MatCfg.ofWord (t.mcReg (fld w 37 36)), t.nsrc w with
  | some c, some n =>
    let dst := (t.sreg (fld w 24 20)).toNat
    decide (32 ≤ n) && decide (n ≤ 4096) && (c.mode == .direct || decide (fld w 13 5 + n ≤ 512)) && !t.overlaps c &&
    inLarder (t.blockAddr w 35 31) c.blockBytes && inLarder (t.blockAddr w 30 26) (n * c.vecBytes) &&
    (c.vdst || !c.delivers || (dst % 8 == 0 && inLarder dst (n * c.outBytes)))
  | _, _ => false

/-- Whether the address of an LDS, STS, LDV or STV is legal (R107, R118). -/
def Tile.lsLegal (t : Tile) (w : SlotWord) (n : Nat) : Bool := decide (t.lsAddr w % 8 = 0) && inLarder (t.lsAddr w) n

/-- The entries of an ASAVE, ALOAD or AADD: CNT + 1 of them. -/
def entryCount (w : SlotWord) : Nat := fld w 23 15 + 1

/-- Whether ENTRY + CNT stays within the store (R118). -/
def entryEnc (w : SlotWord) : Bool := decide (fld w 32 24 + fld w 23 15 ≤ 511)

/-- The larder address of a store move. -/
def Tile.moveAddr (t : Tile) (w : SlotWord) : Nat := (t.sreg (fld w 37 33)).toNat

/-- Whether the address of a store move is legal. -/
def Tile.moveLegal (t : Tile) (w : SlotWord) : Bool :=
  decide (t.moveAddr w % 16 = 0) && inLarder (t.moveAddr w) (512 * entryCount w)

/-- The length of a CRD or CWR. -/
def streamLen (w : SlotWord) : Nat := 64 * (fld w 27 16 + 1)

/-- The larder and cellar addresses of a CRD or CWR. -/
def Tile.streamAddrs (t : Tile) (w : SlotWord) : Nat × Nat := ((t.sreg (fld w 37 33)).toNat, (t.sreg (fld w 32 28)).toNat)

/-- Whether the addresses of a CRD or CWR are legal (R118). -/
def Tile.streamLegal (t : Tile) (w : SlotWord) : Bool :=
  let (l, c) := t.streamAddrs w
  decide (l % 64 = 0) && decide (c % 64 = 0) && inLarder l (streamLen w)

/-- The length of an XSEND. -/
def xsendLen (w : SlotWord) : Nat := 16 * (fld w 22 13 + 1)

/-- The tile an XSEND names: x in S[TILE][5:0], y in S[TILE][13:8]. -/
def Tile.xsendTile (t : Tile) (w : SlotWord) : Nat × Nat :=
  let v := t.sreg (fld w 27 23)
  (bitsOf v.toNat 5 0, bitsOf v.toNat 13 8)

/-- Whether an XSEND is legal (R107, R119): aligned addresses in the larders, another tile of an enabled region of the same
partition. -/
def State.xsendLegal (s : State) (k : Nat) (w : SlotWord) : Bool :=
  let t := s.tile k
  let src := (t.sreg (fld w 37 33)).toNat
  let dst := (t.sreg (fld w 32 28)).toNat
  let (x, y) := t.xsendTile w
  let d := 64 * y + x
  decide (src % 16 = 0) && decide (dst % 16 = 0) && inLarder src (xsendLen w) && inLarder dst (xsendLen w) &&
  decide (d ≠ k) && s.enabled (regionOfTile d) &&
  decide (s.partOfRegion (regionOfTile d) = s.partOfRegion (regionOfTile k))

/-- Whether the source of an XCRATE is legal and the device may send crates (R119, R135). -/
def State.xcrateLegal (s : State) (k : Nat) (w : SlotWord) : Bool :=
  let src := ((s.tile k).sreg (fld w 37 33)).toNat
  decide (src % 8 = 0) && inLarder src (40 * (fld w 27 20 + 1)) && s.domainMode

/-- The length of an XHUB, and whether its source is legal (R119). -/
def xhubLen (w : SlotWord) : Nat := 16 * (fld w 17 8 + 1)
def Tile.xhubLegal (t : Tile) (w : SlotWord) : Bool := inLarder (t.sreg (fld w 37 33)).toNat (xhubLen w)

/-- Whether an operation that issues now takes effect and so makes its larder accesses: it is not predicated off and not illegal
(R107, R109). -/
def State.performs (s : State) (k : Nat) (slot : Slot) (w : SlotWord) : Bool :=
  let t := s.tile k
  t.predOk w &&
  (match slot, opOf w with
  | .m, 0x01 => decide (fld w 19 14 < 36) && t.mmulRuns w
  | .l, 0x01 | .l, 0x02 => t.lsLegal w 8
  | .l, 0x03 | .l, 0x04 => t.lsLegal w (lvBytes w)
  | .l, 0x05 | .l, 0x06 | .l, 0x07 => entryEnc w && t.moveLegal w
  | .l, 0x08 | .l, 0x09 => t.streamLegal w
  | .x, 0x01 => s.xsendLegal k w
  | .x, 0x02 => !t.elreri && s.xcrateLegal k w
  | .x, 0x03 => decide (fld w 32 30 < 2) && t.xhubLegal w
  | _, _ => true)

/-- The buffer region of a larder address (R136). -/
def bufferRegion (a : Nat) : Nat := a / 2 ^ 14 / 3

/-- The buffer regions of a span. -/
def bufferRegions (a n : Nat) : List Nat :=
  if n = 0 then [] else (List.range (bufferRegion (a + n - 1) + 1 - bufferRegion a)).map (fun i => bufferRegion a + i)

/-- The larder spans an operation reads and writes (R136): (reads, writes). -/
def Tile.spans (t : Tile) (slot : Slot) (w : SlotWord) : List (Nat × Nat) × List (Nat × Nat) :=
  let sr := fun (hi lo : Nat) => (t.sreg (fld w hi lo)).toNat
  match slot, opOf w with
  | .m, 0x01 =>
    match MatCfg.ofWord (t.mcReg (fld w 37 36)), t.nsrc w with
    | some c, some n =>
      let out := if c.vdst = false ∧ (c.mode = .direct ∨ c.mode = .addOut) then [(sr 24 20, n * c.outBytes)] else []
      ([(t.blockAddr w 35 31, c.blockBytes), (t.blockAddr w 30 26, n * c.vecBytes)], out)
    | _, _ => ([], [])
  | .l, 0x01 => ([(t.lsAddr w, 8)], [])
  | .l, 0x02 => ([], [(t.lsAddr w, 8)])
  | .l, 0x03 => ([(t.lsAddr w, lvBytes w)], [])
  | .l, 0x04 => ([], [(t.lsAddr w, lvBytes w)])
  | .l, 0x05 => ([], [(sr 37 33, 512 * (fld w 23 15 + 1))])
  | .l, 0x06 => ([(sr 37 33, 512 * (fld w 23 15 + 1))], [])
  | .l, 0x07 => ([(sr 37 33, 512 * (fld w 23 15 + 1))], [])
  | .l, 0x08 => ([], [(sr 37 33, 64 * (fld w 27 16 + 1))])
  | .l, 0x09 => ([(sr 37 33, 64 * (fld w 27 16 + 1))], [])
  | .x, 0x01 => ([(sr 37 33, 16 * (fld w 22 13 + 1))], [])
  | .x, 0x03 => ([(sr 37 33, 16 * (fld w 17 8 + 1))], [])
  | _, _ => ([], [])

/-- The scoreboard entries an operation adds: (region, write) (R136). -/
def Tile.scoreOf (t : Tile) (slot : Slot) (w : SlotWord) : List (Nat × Bool) :=
  let (r, wr) := t.spans slot w
  nub (r.flatMap (fun p => (bufferRegions p.1 p.2).map (fun g => (g, false))) ++
  wr.flatMap (fun p => (bufferRegions p.1 p.2).map (fun g => (g, true))))

/-- The pending count of a buffer region (R136). -/
def Tile.scoreCount (t : Tile) (g : Nat) (write : Bool) : Nat :=
  (t.scores.filter (fun x => x.region == g && x.write == write)).length

/-- Whether the scoreboard holds a bundle: only operations that make their accesses are checked (R136). -/
def State.scoreHolds (s : State) (k : Nat) (b : BitVec 256) : Bool :=
  let t := s.tile k
  let need := allSlots.flatMap (fun sl => let w := slotOf b sl; if s.performs k sl w then t.scoreOf sl w else [])
  need.any (fun p =>
    if p.2 then decide (t.scoreCount p.1 true > 0) || decide (t.scoreCount p.1 false > 0)
    else decide (t.scoreCount p.1 true > 0)) ||
  need.any (fun p => decide (t.scoreCount p.1 p.2 + (need.filter (fun q => q == p)).length > 15))

/-- Whether a write to a register, predicate or matrix configuration is still pending (R137): a result on its way, a load that has
not read the larder yet, or a matrix instruction with a vector-register destination. -/
def Tile.writePending (t : Tile) : Bool :=
  !t.results.isEmpty ||
  t.accesses.any (fun a => match a.use with | .sreg .. => true | .vreg .. => true | _ => false) ||
  t.jobs.any (fun j => match MatCfg.ofWord j.cfg with | some c => c.vdst && c.delivers | none => false)

/-- The interlocks of Elreri mode (R137): a pending register write, an overlap of the array, the scoreboard. -/
def State.elreriHolds (s : State) (k : Nat) (b : BitVec 256) : Bool :=
  let t := s.tile k
  let m := slotOf b .m
  t.writePending || s.scoreHolds k b ||
  (opOf m == 0x01 && t.predOk m &&
    (match MatCfg.ofWord (t.mcReg (fld m 37 36)) with | some c => t.overlaps c | none => false))

/-- Whether an untimed bundle stalls (R120, R128, R131, R137). -/
def State.stalls (s : State) (k : Nat) (b : BitVec 256) : Bool :=
  let t := s.tile k
  let c := slotOf b .c
  !t.bundleTimed b && !t.bundleIllegal b &&
  ((opOf c == 0x0B && t.predOk c && !t.achkVoid && !t.achkPasses c) ||
   (t.portBusy && [Slot.l, Slot.x].any (fun sl => let w := slotOf b sl; (portCycles sl w).isSome && s.performs k sl w)) ||
   (t.elreri && s.elreriHolds k b))

/-- The bundle in progress, or the one that the next lookup finds. -/
def Tile.bundleNow (t : Tile) : BitVec 256 := match t.lookup with | .hit _ b => b | _ => 0

/-- The cycles that a CWR of the bundle in progress holds the crossing port for before an X-slot injection of the same bundle: the
port injects one transfer at a time, and the L slot's comes first (R120; log entry 56). -/
def State.cwrCycles (s : State) (k : Nat) : Nat :=
  let w := slotOf (s.tile k).bundleNow .l
  if opOf w = 0x09 ∧ s.performs k .l w = true then (portCycles .l w).getD 0 else 0

/-- A cycle in which the tile stalls: its pipelines go on and nothing issues. -/
def Tile.stallCycle (t : Tile) : Tile := { t.passCycle with stalled := t.stalled + 1 }

/-! ### The end of a bundle -/

/-- The decisions of the loops that end at a bundle, the most recently started first (R126, R127): the loops and counters
afterwards, and the next bundle if a loop goes round. -/
def loopEnd (pc : Nat) : List Loop → Map (BitVec 32) → List Loop × Map (BitVec 32) × Option Nat
  | [], lc => ([], lc, none)
  | l :: ls, lc =>
    if l.last = pc then
      let n := mget 0 lc l.lc
      if n.toNat > 1 then (l :: ls, mset 0 lc l.lc (n - 1), some (l.head + 1))
      else loopEnd pc ls (mset 0 lc l.lc 0)
    else
      let (ls', lc', nx) := loopEnd pc ls lc
      (l :: ls', lc', nx)

/-- The next bundle, the loops and the counters after the bundle at the tile's address (R125 to R127). -/
def Tile.advance (t : Tile) : Tile :=
  match t.control with
  | .jump a => { t with pc := a, loops := t.loops.filter (fun l => decide (l.head < a) && decide (a ≤ l.last)) }
  | .loop i body count =>
    let others := t.loops.filter (fun l => decide (l.lc ≠ i))
    let (ls, lc, nx) := loopEnd t.pc others t.lc
    if count = 0 then
      { t with loops := ls, lc := mset 0 lc i 0, pc := nx.getD (t.pc + (body + 1) + 1) }
    else
      { t with loops := ⟨i, t.pc, t.pc + (body + 1)⟩ :: ls, lc := mset 0 lc i count, pc := nx.getD (t.pc + 1) }
  | _ =>
    let (ls, lc, nx) := loopEnd t.pc t.loops t.lc
    { t with loops := ls, lc := lc, pc := nx.getD (t.pc + 1) }

/-- The hold a bundle's control slot sets (R129); `begun` is the count of plan beats started. -/
def Tile.holdAfter (t : Tile) (begun : Nat) : Tile :=
  match t.control with
  | .delay d => { t with hold := .delay (t.cyc + 1 + (d + 1)) }
  | .bend => { t with hold := .beat }
  | .align n => if n < begun then t.event .timingBreak else { t with hold := .align n }
  | .halt => { t with hold := .halted }
  | _ => t

/-- Whether an armed bundle break unit matches a bundle of a tile (R140). -/
def State.breakMatches (s : State) (k : Nat) (b : BitVec 256) (count : Nat) (n : Nat) : Bool :=
  let rg := regionOfTile k
  let p := s.unitOf rg
  let v := s.reg p (0x70100 + 16 * n)
  let mode := getBits v 1 0
  let inScope := if getBits v 2 2 = 0 then decide (getBits v 8 3 = k % 64) && decide (getBits v 14 9 = k / 64)
    else decide (getBits v 20 15 = rg)
  inScope && ((mode == 1 && s.field p (0x70108 + 16 * n) 47 0 == count) ||
    (mode == 2 && ((bundleTag b ^^^ getBits v 28 21) &&& getBits v 36 29) == 0))

/-- Whether a match comes before one recorded already (R141): of two bundle matches the one of the earlier work cycle, in one cycle
the lower unit; a bundle match before a descriptor match of the same tick.  A halt request is no match. -/
def HaltInfo.before (h o : HaltInfo) : Bool :=
  match h.cause, o.cause with
  | 2, 2 => decide (h.cycle < o.cycle) || (h.cycle == o.cycle && decide (h.unit < o.unit))
  | 2, 3 => h.tick == o.tick
  | 3, 3 => h.tick == o.tick && decide (h.unit < o.unit)
  | _, _ => false

/-- Ask for a halt of the scope at the end of the beat; the first match stands until RESUME (R141). -/
def State.askHalt (s : State) (u : Nat) (h : HaltInfo) : State :=
  let x := s.unit u
  if x.halted then s
  else match x.haltPend with
    | some o => if h.before o then s.setUnit u { x with haltPend := some h } else s
    | none => s.setUnit u { x with haltPend := some h }

/-- Debug is enabled (R138). -/
def State.debug (s : State) : Bool := s.field 0 0x40 1 1 == 1

/-- The bundle break units of a tile's function (R140, R141). -/
def State.bundleBreaks (s : State) (k : Nat) (b : BitVec 256) (count pc cycle : Nat) : State :=
  if s.debug then
    match (List.range 4).find? (fun n => s.breakMatches k b count n) with
    | some n => s.askHalt (s.unitOf (regionOfTile k)) ⟨2, n, k, pc, s.clk.tick, cycle⟩
    | none => s
  else s

/-- The work cycle of a tile counted for its slip unit: the plan beats that the unit had started before the tile's plan come on top of its
position, so that tiles of plans with different starts compare (R141, R162). -/
def State.unitCycle (s : State) (k : Nat) : Nat :=
  (s.tile k).pos + (match s.ctxOfTile k with
    | some c => (s.ctx c).step.beat0 * (s.unit (s.unitOf (regionOfTile k))).work
    | none => 0)

/-- Every slot of the bundle has issued: it is counted, the next bundle is chosen and the cycle passes. -/
def State.closeBundle (s : State) (k : Nat) (b : BitVec 256) : State :=
  let t := s.tile k
  let begun := match s.ctxOfTile k with | some c => s.planBeats c | none => 0
  let pc := t.pc
  let count := t.count + 1
  let t1 := (t.holdAfter begun).advance
  let t2 := { t1 with count := count, issued := [], cur := 0, control := .none, lateFill := false, achkVoid := false, stalled := 0,
                      last := some (!t.bundleTimed b, opOf (slotOf b .c) == 0x04) }
  let s1 := s.putTile k ((t2.passCycle).settle (s.tileLimit k))
  s1.bundleBreaks k b count.toNat pc (s.unitCycle k)

/-- The tile reaches an address at or beyond CODE_BUNDLES (R76): poison, a break, and it counts as having issued HALT.  The cause bit is
that of an illegal operation (log entry 55). -/
def Tile.overrun (t : Tile) : Tile := { t.illegal with hold := .halted }

/-- A lookup misses (R76, R134): a break in timed code, else a stall and a fill; a line that is being filled already is waited for;
with every line pinned the missing bundle is illegal and issues without effect (log entry 55). -/
def State.miss (s : State) (k : Nat) : State :=
  let t := s.tile k
  if t.timedRule then s.modTileSettle k (fun t => { t.event .timingBreak with hold := .missed })
  else if (t.findLine t.pc false).isSome then s.modTile k (fun t => { t.stallCycle with lateFill := true })
  else match t.missLine with
    | some i => s.modTile k (fun t => { (t.startFill i t.pc).stallCycle with lateFill := true, missPtr := (i + 1) % 64 })
    | none => (s.putTile k t.illegal).closeBundle k 1

/-- A slot of the bundle in progress has issued; when all five have, the bundle ends. -/
def State.slotIssued (s : State) (k : Nat) (slot : Slot) (b : BitVec 256) : State :=
  let s2 := s.setTile k { s.tile k with issued := slot :: (s.tile k).issued, cur := b }
  if (s2.tile k).issued.length = 5 then s2.closeBundle k b else s2

/-- Issue one slot (R105, R107, R109).  `ok` accepts the opcode, `enc` says the encoding is legal, `run` that the operation
is legal on the tile's registers, `eff` is its effect.  Nothing happens where the tile does not issue that slot word now.  DESIGN CHOICE
(log entry 74): a bundle is looked up in the cycle it would issue in, not while the tile waits; a false predicate takes away a breach by
register values and not one of the encoding. -/
def State.issue (s : State) (k : Nat) (slot : Slot) (w : SlotWord) (ok : Nat → Bool)
    (enc : State → Tile → Bool → Bool) (run : State → Tile → Bool → Bool) (eff : Bool → State → State) : State :=
  let t := s.tile k
  if !s.mayIssue k then s
  else match t.lookup with
    | .overrun => s.modTileSettle k Tile.overrun
    | .miss => s.miss k
    | .hit _ b =>
      if slotOf b slot != w || !ok (opOf w) || t.issued.contains slot then s
      else if t.issued.isEmpty && s.stalls k b then s.modTile k Tile.stallCycle
      else
        let timed := t.bundleTimed b
        let s0 := if t.issued.isEmpty && t.lateFill && timed then s.modTile k (fun t => t.event .timingBreak) else s
        let bad := t.bundleIllegal b || !enc s0 t timed || (t.predOk w && !run s0 t timed)
        let s1 := if t.achkVoid then s0 else if bad then s0.modTile k Tile.illegal else if t.predOk w then eff timed s0 else s0
        s1.slotIssued k slot b

/-- Always legal. -/
def always (_ : State) (_ : Tile) (_ : Bool) : Bool := true

/-- An operation of one opcode whose results go to registers: its pending writes are computed from the tile at issue. -/
def State.issueReg (s : State) (k : Nat) (slot : Slot) (w : SlotWord) (op : Nat) (legal : Bool)
    (res : Tile → List (Nat × Nat × Target)) : Host.Outcome State Fault Refusal :=
  .next (s.issue k slot w (· == op) (fun _ _ _ => legal) always
    (fun _ s => s.setTile k ((res (s.tile k)).foldl (fun t r => t.later r.1 r.2.1 r.2.2) (s.tile k))))

/-- Hold the buffer regions of an operation that issues in Elreri mode: reads and writes until the cycles named, or until
the stream named ends (R136). -/
def Tile.score (t : Tile) (slot : Slot) (w : SlotWord) (reads writes : Option Nat) (stream : Nat) : Tile :=
  if t.elreri then
    { t with scores := t.scores ++ (t.scoreOf slot w).map (fun p => ⟨p.1, p.2, if p.2 then writes else reads, stream⟩) }
  else t

/-- The key of a free value of a tile's operation: the step, the values that meet, the tile's place from the first tile of its partition, and
the register; no time enters it, so that a second attempt of the step, another run under the conditions of R403 and a restored run meet
the same value (R397, R403, R411; log entry 68). -/
def State.tileKey (s : State) (k r : Nat) (vs : List Nat) : Nat :=
  let rg := regionOfTile k
  let first := (s.regionsOf (s.partOfRegion rg)).headD 0
  let x := k % 64 - first % 8 * 8
  let y := k / 64 - first / 8 * 8
  let step := match s.ctxOfTile k with | some c => s.stepNo c | none => 0
  (vs.foldl (fun a v => a * 2 ^ 2112 + v) step * 4096 + y * 64 + x) * 512 + r

/-- Which of the values that meet in a register prevails, where the manual gives no order: a free value (log entry 13). -/
def State.pickFree (s : State) (k r : Nat) (vs : List Nat) : Nat := Config.unstated 1 (s.tileKey k r vs)

/-- The address increments an operation writes at c + 1.  Where two of them name one register, the manual gives no order
between the two writes: which of them prevails is a free value (log entry 13). -/
def State.incRegs (s : State) (k rank : Nat) (incs : List (Nat × Nat)) : State :=
  (nub (incs.map (·.1))).foldl (fun (u : State) r =>
    let t := u.tile k
    let vs := (incs.filter (fun p => p.1 == r)).map (fun p => t.sreg r + BitVec.ofNat 64 p.2)
    match vs with
    | [v] => u.setTile k (t.later 1 rank (.sreg r v))
    | _ =>
      let n := u.pickFree k r (vs.map (·.toNat))
      u.setTile k (t.later 1 rank (.sreg r (vs.getD (n % vs.length) 0)))) s

/-! ### The commands -/

/-- TILE_NOP: a slot with opcode 0 issues without effect; a slot whose opcode is not defined issues as an illegal operation
(R107, R111).  `parity` is a parity error of the bundle, handled as a miss of its line, which goes (R77; log entry 55). -/
def execTileNop (k slot : Nat) (parity : Bool) (s : State) : Host.Outcome State Fault Refusal :=
  let sl := slotOfNat slot
  let t := s.tile k
  match t.lookup with
  | .hit i b =>
    if parity && t.issued.isEmpty && s.mayIssue k then
      .next ((s.setTile k { t with lines := mdel t.lines i }).miss k)
    else
      .next (s.issue k sl (slotOf b sl) (fun o => o == 0 || !(definedOps sl).contains o) (fun _ _ _ => opOf (slotOf b sl) == 0)
        always (fun _ s => s))
  | _ => .next (s.issue k sl 0 (fun _ => true) always always (fun _ s => s))

/-- The bytes a plan stream reads from the cellar, under what the decoders find in its transfers (R201, R208): zeros with the poison
flag where the check fails. -/
def State.streamRead (s : State) (k a len : Nat) (faults : List SymFault) : List Byte × Bool × State :=
  let c := s.ctxOfTile k
  let p := s.partOfRegion (regionOfTile k)
  match s.checkExtent c a len with
  | .ok ad => s.decodeRead p ad len faults
  | .extent => (List.replicate len 0, true, s.extentFault p c a false)
  | .protect => (List.replicate len 0, true, s.extentFault p c a true)

/-- The 64 bundles of a line. -/
def lineBundles (bs : List Byte) : Map (BitVec 256) :=
  (List.range 64).foldl (fun m i => mset (0 : BitVec 256) m i (BitVec.ofNat 256 (fieldAt bs (32 * i) 32))) []

/-- ICACHE_LINE_FILL_DONE: the line's 64 bundles arrive from the cellar in a work cycle of the tile's region and it becomes valid (R75,
R132, R164); the fill is a plan stream, so what its decoders find counts, and poisoned data poisons the tile (R201, R202, R208). -/
def execIcacheLineFillDone (k line : Nat) (faults : List SymFault) (s : State) : Host.Outcome State Fault Refusal :=
  let t := s.tile k
  match mfind t.lines line, t.code with
  | some l, some (_, base) =>
    if l.filling && s.regionRuns (regionOfTile k) then
      let (bs, poison, s1) := s.streamRead k (base + 32 * l.tag) 2048 faults
      .next (s1.modTile k (fun t =>
        let t1 := { t with lines := mput t.lines line { valid := true, filling := false, tag := l.tag, bundles := lineBundles bs } }
        if poison then t1.poisoned 6 else t1))
    else .next s
  | _, _ => .next s

/-- OP_RESULT_WRITEBACK: the results of the earliest due cycle are written, in the order of R106; held cycles then pass. -/
def execOpResultWriteback (k : Nat) (s : State) : Host.Outcome State Fault Refusal :=
  let t := s.tile k
  match t.nextResult with
  | some d => if d ≤ t.cyc then .next (s.modTileSettle k (fun t => t.writeback (s.pickFree k) d)) else .next s
  | none => .next s

end Sys2Proof.Machine
end

