-- ==== Sys2Proof/Machine/LarderOps.lean ====
section
/-!
DEFINITION. The L slot (R43, R92, R118, R212, R466): loads and stores, store-entry moves, plan streams and their completion.
-/
namespace Sys2Proof.Machine

/-- A larder access of the L slot in priority order of R69. -/
def Tile.lAccess (t : Tile) (due addr len : Nat) (write : Bool) (data : List Byte) (flips : List (Nat × BitVec 72)) (use : ReadUse) : Access :=
  { due := due, prio := 3, order := t.seq, addr := addr, len := len, write := write, data := data, flips := flips, use := use }

/-- The write of POST (R118). -/
def State.lsPostInc (s : State) (k : Nat) (w : SlotWord) : State :=
  if flag w 0 then s.setTile k ((s.tile k).later 1 1 (.sreg (fld w 32 28) ((s.tile k).lsPost w))) else s

/-- The pieces of an access of up to 256 B: an access that spans 17 granules has two in one bank, and its last one is
arbitrated as an access of its own (R67, R70). -/
def pieces (addr n : Nat) : List (Nat × Nat) :=
  if (addr + n + 15) / 16 - addr / 16 ≤ 16 then [(0, n)]
  else
    let m := (addr / 16 + 16) * 16 - addr
    [(0, m), (m, n - m)]

/-- Lanes of a vector register from byte `o` to byte `o + n`. -/
def byteLanes (o n : Nat) : BitVec 64 := BitVec.ofNat 64 ((2 ^ (n / 4) - 1) * 2 ^ (o / 4))

/-- LDS (R118). -/
def execLds (k : Nat) (w : SlotWord) (flips : List (Nat × BitVec 72)) (s : State) : Host.Outcome State Fault Refusal :=
  .next (s.issue k .l w (· == 0x01) always (fun _ t _ => t.lsLegal w 8)
    (fun _ s =>
      let t := s.tile k
      let a := t.lAccess (t.cyc + 1) (t.lsAddr w) 8 false [] flips (.sreg (fld w 37 33) (t.cyc + 3))
      let t1 := t.score .l w (some (t.cyc + 1)) none 0
      (s.setTile k { t1 with accesses := t1.accesses ++ [a], seq := t1.seq + 1 }).lsPostInc k w))

/-- STS (R118). -/
def execSts (k : Nat) (w : SlotWord) (s : State) : Host.Outcome State Fault Refusal :=
  .next (s.issue k .l w (· == 0x02) always (fun _ t _ => t.lsLegal w 8)
    (fun _ s =>
      let t := s.tile k
      let a := t.lAccess (t.cyc + 2) (t.lsAddr w) 8 true (leBytes 8 (t.sreg (fld w 37 33)).toNat) [] .none
      let t1 := t.score .l w none (some (t.cyc + 2)) 0
      (s.setTile k { t1 with accesses := t1.accesses ++ [a], seq := t1.seq + 1 }).lsPostInc k w))

/-- LDV: the rest of V becomes zero (R118). -/
def execLdv (k : Nat) (w : SlotWord) (flips : List (Nat × BitVec 72)) (s : State) : Host.Outcome State Fault Refusal :=
  .next (s.issue k .l w (· == 0x03) always (fun _ t _ => t.lsLegal w (lvBytes w))
    (fun _ s =>
      let t := s.tile k
      let ps := pieces (t.lsAddr w) (lvBytes w)
      let a := ps.map (fun p =>
        let lanes : BitVec 64 := if p.1 = 0 then ~~~((ps.tail.map (fun q => byteLanes q.1 q.2)).foldl (· ||| ·) 0) else byteLanes p.1 p.2
        t.lAccess (t.cyc + 1) (t.lsAddr w + p.1) p.2 false [] flips (.vreg (fld w 37 33) (t.cyc + 3) (p.1 / 4) lanes))
      let t1 := t.score .l w (some (t.cyc + 1)) none 0
      (s.setTile k { t1 with accesses := t1.accesses ++ a, seq := t1.seq + 1 }).lsPostInc k w))

/-- STV (R118). -/
def execStv (k : Nat) (w : SlotWord) (s : State) : Host.Outcome State Fault Refusal :=
  .next (s.issue k .l w (· == 0x04) always (fun _ t _ => t.lsLegal w (lvBytes w))
    (fun _ s =>
      let t := s.tile k
      let bs := leBytes (lvBytes w) (t.vreg (fld w 37 33)).toNat
      let a := (pieces (t.lsAddr w) (lvBytes w)).map (fun p =>
        t.lAccess (t.cyc + 2) (t.lsAddr w + p.1) p.2 true ((bs.drop p.1).take p.2) [] .none)
      let t1 := t.score .l w none (some (t.cyc + 2)) 0
      (s.setTile k { t1 with accesses := t1.accesses ++ a, seq := t1.seq + 1 }).lsPostInc k w))

/-! ### Store entries (R43, R92, R118, R466) -/

/-- POST of a store move adds 512 × (CNT + 1). -/
def State.movePost (s : State) (k : Nat) (w : SlotWord) : State :=
  if flag w 0 then
    s.setTile k ((s.tile k).later 1 1 (.sreg (fld w 37 33) ((s.tile k).sreg (fld w 37 33) + BitVec.ofNat 64 (512 * entryCount w))))
  else s

/-- The bits a fault has changed in one store entry. -/
def entryFlips (ecc : List (Nat × Nat × BitVec 120)) (e : Nat) : List (Nat × BitVec 120) :=
  (ecc.filter (fun f => f.1 == e)).map (·.2)

/-- ASAVE: entry i is read at c + 1 + 2i and written in the two cycles after (R118). -/
def execAsave (k : Nat) (w : SlotWord) (ecc : List (Nat × Nat × BitVec 120)) (s : State) : Host.Outcome State Fault Refusal :=
  .next (s.issue k .l w (· == 0x05) (fun _ _ _ => entryEnc w) (fun _ t _ => t.moveLegal w)
    (fun _ s =>
      let t := s.tile k
      let ms := (List.range (entryCount w)).map (fun i =>
        ({ due := t.cyc + 1 + 2 * i, order := t.seq, entry := fld w 32 24 + i, save := some (t.moveAddr w + 512 * i),
           add := false, partials := [], flips := entryFlips ecc (fld w 32 24 + i) } : AccMove))
      let t1 := t.score .l w none (some (t.cyc + 1 + 2 * entryCount w)) 0
      (s.setTile k { t1 with accMoves := t1.accMoves ++ ms, seq := t1.seq + 1 }).movePost k w))

/-- The larder reads of an ALOAD or AADD: entry i in c + 1 + 2i and c + 2 + 2i, its store write at c + 4 + 2i (R118). -/
def Tile.moveReads (t : Tile) (w : SlotWord) (add : Bool) (flips : List (Nat × BitVec 72)) (ecc : List (Nat × Nat × BitVec 120)) :
    List Access :=
  (List.range (2 * entryCount w)).map (fun j =>
    let i := j / 2
    t.lAccess (t.cyc + 1 + j) (t.moveAddr w + 256 * j) 256 false [] flips
      (.acc (fld w 32 24 + i) add (j % 2) (t.cyc + 4 + 2 * i) (entryFlips ecc (fld w 32 24 + i))))

/-- Start an ALOAD or AADD. -/
def State.startMove (s : State) (k : Nat) (w : SlotWord) (add : Bool) (flips : List (Nat × BitVec 72))
    (ecc : List (Nat × Nat × BitVec 120)) : State :=
  let t := s.tile k
  let t1 := t.score .l w (some (t.cyc + 2 * entryCount w)) none 0
  (s.setTile k { t1 with accesses := t1.accesses ++ t.moveReads w add flips ecc, seq := t1.seq + 1 }).movePost k w

/-- ALOAD (R118, R466). -/
def execAload (k : Nat) (w : SlotWord) (flips : List (Nat × BitVec 72)) (s : State) : Host.Outcome State Fault Refusal :=
  .next (s.issue k .l w (· == 0x06) (fun _ _ _ => entryEnc w) (fun _ t _ => t.moveLegal w)
    (fun _ s => s.startMove k w false flips []))

/-- AADD (R92, R118). -/
def execAadd (k : Nat) (w : SlotWord) (flips : List (Nat × BitVec 72)) (ecc : List (Nat × Nat × BitVec 120)) (s : State) :
    Host.Outcome State Fault Refusal :=
  .next (s.issue k .l w (· == 0x07) (fun _ _ _ => entryEnc w) (fun _ t _ => t.moveLegal w)
    (fun _ s => s.startMove k w true flips ecc))

/-! ### Plan streams (R118, R120, R210, R212) -/

/-- LPOST and CPOST. -/
def streamIncs (w : SlotWord) : List (Nat × Nat) :=
  (if flag w 1 then [(fld w 37 33, streamLen w)] else []) ++ (if flag w 0 then [(fld w 32 28, streamLen w)] else [])

/-- Put a transfer on the crossing port: its larder reads, at up to `step` bytes a cycle, and its occupancy begin at `start`
(R119, R120, R122). -/
def Tile.inject (t : Tile) (kind : SendKind) (addr len step start : Nat) (flips : List (Nat × BitVec 72)) : Tile :=
  let n := (len + step - 1) / step
  let reads := (List.range n).map (fun i =>
    ({ due := start + i, prio := 4, order := t.seq, addr := addr + step * i, len := min step (len - step * i), write := false,
       data := [], flips := flips, use := .send t.seq } : Access))
  { t with accesses := t.accesses ++ reads,
           sends := t.sends ++ [{ id := t.seq, kind := kind, len := len, data := [], poison := false }],
           portFree := max t.portFree (start + n), seq := t.seq + 1 }

/-- CRD (R118). -/
def execCrd (k : Nat) (w : SlotWord) (s : State) : Host.Outcome State Fault Refusal :=
  .next (s.issue k .l w (· == 0x08) always (fun _ t _ => t.streamLegal w)
    (fun _ s =>
      let t := s.tile k
      let (l, c) := t.streamAddrs w
      let t1 := t.score .l w none none t.seq
      (s.setTile k { t1 with streams := t1.streams ++ [⟨t.seq, l, c, streamLen w, fld w 15 12⟩], seq := t1.seq + 1 }).incRegs k 1
        (streamIncs w)))

/-- CWR (R118, R120). -/
def execCwr (k : Nat) (w : SlotWord) (flips : List (Nat × BitVec 72)) (s : State) : Host.Outcome State Fault Refusal :=
  .next (s.issue k .l w (· == 0x09) always (fun _ t timed => t.streamLegal w && !(timed && t.portBusy))
    (fun _ s =>
      let t := s.tile k
      let (l, c) := t.streamAddrs w
      let t1 := t.score .l w (some (t.cyc + (streamLen w + 127) / 128)) none t.seq
      (s.setTile k (t1.inject (.cellar c (fld w 15 12)) l (streamLen w) 128 (t.cyc + 1) flips)).incRegs k 1 (streamIncs w)))

/-- The chunks of a received transfer: 128 B a cycle, the last one completing it (R73, R121). -/
def chunksOf (addr : Nat) (bs : List Byte) (poison : Bool) (done : Arrival) : List Chunk :=
  let n := max 1 ((bs.length + 127) / 128)
  (List.range n).map (fun i =>
    ⟨addr + 128 * i, (bs.drop (128 * i)).take 128, poison, if i + 1 = n then done else .more⟩)

/-! ### Routes and landings (R26, R28, R166, R171) -/

/-- Whether the route of a mesh transfer between two tiles, X first and then Y, has a router in a region (R26). -/
def meshRoute (a b r : Nat) : Bool :=
  let rx := r % 8
  let ry := r / 8
  let ax := a % 64 / 8
  let bx := b % 64 / 8
  let ay := a / 64 / 8
  let by_ := b / 64 / 8
  (ry == ay && decide (min ax bx ≤ rx) && decide (rx ≤ max ax bx)) || (rx == bx && decide (min ay by_ ≤ ry) && decide (ry ≤ max ay by_))

/-- Whether the way between a tile and a port die, along the tile's row, has a router in a region (R28): west to port die A, east to B. -/
def edgeRoute (k : Nat) (west east : Bool) (r : Nat) : Bool :=
  r / 8 == k / 64 / 8 && ((west && decide (r % 8 ≤ k % 64 / 8)) || (east && decide (k % 64 / 8 ≤ r % 8)))

/-- The landing of the last region-crossing link on the route of a mesh transfer; none within one region (R26, R171). -/
def meshLanding (a b : Nat) : Option Nat :=
  let ax := a % 64
  let bx := b % 64
  let ay := a / 64
  let by_ := b / 64
  if ay / 8 < by_ / 8 then some (4 * (by_ / 8 * 8 * 64 + bx) + 2)
  else if by_ / 8 < ay / 8 then some (4 * ((by_ / 8 * 8 + 7) * 64 + bx) + 3)
  else if ax / 8 < bx / 8 then some (4 * (ay * 64 + bx / 8 * 8))
  else if bx / 8 < ax / 8 then some (4 * (ay * 64 + bx / 8 * 8 + 7) + 1)
  else none

/-- The landing of the last region-crossing link between a port die and a tile; none beside the edge (R28, R171). -/
def edgeLanding (k : Nat) (west : Bool) : Option Nat :=
  let x := k % 64
  let row := k / 64 * 64
  if west then (if x < 8 then none else some (4 * (row + x / 8 * 8)))
  else (if 56 ≤ x then none else some (4 * (row + x / 8 * 8 + 7) + 1))

/-- Entries of a landing (R171). -/
def landingSize : Nat := 16

def State.landing (s : State) (key : Nat) : List LandEntry := mget [] s.clk.landings key

def State.setLanding (s : State) (key : Nat) (l : List LandEntry) : State :=
  { s with clk := { s.clk with landings := mset [] s.clk.landings key l } }

/-- Write as many chunks for a tile into a landing as it has room for; the answer counts them (R171). -/
def State.land (s : State) (key k : Nat) (cs : List Chunk) : Nat × State :=
  let n := min cs.length (landingSize - (s.landing key).length)
  (n, s.setLanding key (s.landing key ++ (cs.take n).map (fun c => ⟨k, c⟩)))

/-- A region's next work cycle begins: what its landings hold becomes readable and goes to its tiles, in order (R166, R171). -/
def State.takeLandings (s : State) (r : Nat) : State :=
  (s.clk.landings.filter (fun p => regionOfTile (p.1 / 4) == r)).foldl (fun (u : State) p =>
    p.2.foldl (fun (w : State) e => w.setTile e.tile { w.tile e.tile with recv := (w.tile e.tile).recv ++ [e.chunk] }) (u.setLanding p.1 [])) s

/-- The landings of a region lose what they hold for a plan that has stopped or is set up afresh. -/
def State.clearLandings (s : State) (r : Nat) : State :=
  { s with clk := { s.clk with landings := s.clk.landings.filter (fun p => regionOfTile (p.1 / 4) != r) } }

/-- Received data reaches a tile of a running region and is written through its crossing port, a chunk in each work cycle (R73, R121, R164).
Where the tile's issue is held, the cycles of the hold have passed already, so the data is in place. -/
def State.arrive (s : State) (k : Nat) (cs : List Chunk) : State :=
  s.modTile k (fun t =>
    let t1 := { t with recv := t.recv ++ cs }
    let u := if t.code.isSome then t1.settle (s.tileLimit k) else t1
    if u.code.isNone || (u.held && !u.owes) then u.drain else u)

/-- CELLAR_STREAM_DONE: a CRD's bytes reach the larder, or every byte of a CWR has been accepted; the arrival counter counts, in the work
cycles of the tile's region (R212, R208, R201, R164).  `faults` is what the decoders find in the transfers of a CRD. -/
def execCellarStreamDone (k id : Nat) (faults : List SymFault) (s : State) : Host.Outcome State Fault Refusal :=
  let t := s.tile k
  if !s.regionRuns (regionOfTile k) then .next s
  else match t.streams.find? (fun x => x.id == id), t.sends.find? (fun x => x.id == id) with
  | some x, _ =>
    let (bs, poison, s1) := s.streamRead k x.cel x.len faults
    .next ((s1.setTile k { t with streams := t.streams.filter (fun y => y.id != id) }).arrive k (chunksOf x.lar bs poison (.stream id x.ctr)))
  | none, some x =>
    match x.kind with
    | .cellar a ctr =>
      if x.data.length < x.len then .next s
      else
        let p := s.partOfRegion (regionOfTile k)
        let c := s.ctxOfTile k
        let (s1, bad) := match s.checkExtent c a x.len with
          | .ok ad => (s.cellarWrite ad x.data x.poison, false)
          | .extent => (s.extentFault p c a false, true)
          | .protect => (s.extentFault p c a true, true)
        .next ((s1.setTile k { t with sends := t.sends.filter (fun y => y.id != id) }).arrive k (chunksOf 0 [] bad (.stream id ctr)))
    | _ => .next s
  | none, none => .next s

end Sys2Proof.Machine
end

