-- ==== Sys2Proof/Machine/Crossing.lean ====
section
/-!
DEFINITION. The X slot and mesh arrivals (R26, R73, R119 to R123).
-/
namespace Sys2Proof.Machine

/-- SPOST and DPOST. -/
def xIncs (ps : List (Bool × Nat)) (len : Nat) : List (Nat × Nat) := (ps.filter (·.1)).map (fun p => (p.2, len))

/-- XSEND (R119, R120). -/
def execXsend (k : Nat) (w : SlotWord) (flips : List (Nat × BitVec 72)) (s : State) : Host.Outcome State Fault Refusal :=
  .next (s.issue k .x w (· == 0x01) always (fun s t timed => s.xsendLegal k w && !(timed && (t.portBusy || s.cwrCycles k != 0)))
    (fun _ s =>
      let t := s.tile k
      let n := xsendLen w
      let (x, y) := t.xsendTile w
      let start := t.cyc + 1 + s.cwrCycles k
      let t1 := t.score .x w (some (start + (n + 127) / 128 - 1)) none 0
      (s.setTile k (t1.inject (.mesh (64 * y + x) (t.sreg (fld w 32 28)).toNat (fld w 12 9)) (t.sreg (fld w 37 33)).toNat n 128 start
        flips)).incRegs k 2 (xIncs [(flag w 8, fld w 37 33), (flag w 7, fld w 32 28)] n)))

/-- The header of crate `i` of an XCRATE, but for its P bit (R122, R233). -/
def crateHeader (h : W64) (i cnt : Nat) (fence : Bool) : W64 :=
  let seq := (bitsOf h.toNat 15 0 + i) % 2 ^ 16
  putBits (putBits (putBits h 15 0 seq) 33 33 (if fence && i == cnt then 1 else 0)) 32 32 0

/-- XCRATE (R119, R120, R122, R135): one crate a cycle. -/
def execXcrate (k : Nat) (w : SlotWord) (flips : List (Nat × BitVec 72)) (s : State) : Host.Outcome State Fault Refusal :=
  .next (s.issue k .x w (· == 0x02) (fun _ t _ => !t.elreri)
    (fun s t timed => s.xcrateLegal k w && !(timed && (t.portBusy || s.cwrCycles k != 0)))
    (fun _ s =>
      let t := s.tile k
      let cnt := fld w 27 20
      let h := t.sreg (fld w 32 28)
      let src := (t.sreg (fld w 37 33)).toNat
      let start := t.cyc + 1 + s.cwrCycles k
      let t1 := (List.range (cnt + 1)).foldl (fun (u : Tile) i =>
        u.inject (.crate (crateHeader h i cnt (flag w 19))) (src + 40 * i) 40 40 (start + i) flips) t
      let s1 := (s.setTile k t1).incRegs k 2 (xIncs [(flag w 18, fld w 37 33)] (40 * (cnt + 1)))
      if flag w 17 then
        s1.setTile k ((s1.tile k).later 1 2 (.sreg (fld w 32 28) (putBits h 15 0 ((bitsOf h.toNat 15 0 + cnt + 1) % 2 ^ 16))))
      else s1))

/-- XHUB (R119, R120). -/
def execXhub (k : Nat) (w : SlotWord) (flips : List (Nat × BitVec 72)) (s : State) : Host.Outcome State Fault Refusal :=
  .next (s.issue k .x w (· == 0x03) (fun _ _ _ => decide (fld w 32 30 < 2))
    (fun s t timed => t.xhubLegal w && !(timed && (t.portBusy || s.cwrCycles k != 0)))
    (fun _ s =>
      let t := s.tile k
      let n := xhubLen w
      let start := t.cyc + 1 + s.cwrCycles k
      let t1 := t.score .x w (some (start + (n + 127) / 128 - 1)) none 0
      (s.setTile k (t1.inject (.hub (fld w 32 30) (fld w 29 18)) (t.sreg (fld w 37 33)).toNat n 128 start flips)).incRegs k 2
        (xIncs [(flag w 7, fld w 37 33)] n)))

/-- Whether XBIND may write a binding (R123). -/
def bindLegal (v : W64) : Bool :=
  let e := bitsOf v.toNat 19 16
  let b := bitsOf v.toNat 41 20
  decide (e ≤ 12) && decide (b % 8 = 0) && decide (b + 40 * 2 ^ e ≤ larderSize)

/-- XBIND (R123, R135). -/
def execXbind (k : Nat) (w : SlotWord) (s : State) : Host.Outcome State Fault Refusal :=
  .next (s.issue k .x w (· == 0x04) (fun _ t _ => !t.elreri) (fun _ t _ => bindLegal (t.sreg (fld w 31 27)))
    (fun _ s => s.setTile k ((s.tile k).later 1 2 (.bind (fld w 37 32) ((s.tile k).sreg (fld w 31 27))))))

/-- Whether every region on a route runs, but for the one it ends in: routers of a gated region hold what they carry (R164). -/
def State.passes (s : State) (route : Nat → Bool) (last : Nat) : Bool :=
  (List.range 64).all (fun r => r == last || !route r || s.regionRuns r)

/-- A tile's transfer has arrived whole. -/
def State.endSend (s : State) (k id : Nat) : State := s.modTile k (fun t => { t with sends := t.sends.filter (fun y => y.id != id) })

/-- MESH_TRANSFER_ARRIVAL: transfer `id` of tile `k` reaches the receiving tile, whose work cycles write it and count its arrival.  Where
the receiving region is gated, the landing of the last link takes what it has room for, and the rest stays on the way (R73, R121, R164,
R166, R171). -/
def execMeshTransferArrival (k id : Nat) (s : State) : Host.Outcome State Fault Refusal :=
  match (s.tile k).sends.find? (fun x => x.id == id) with
  | some x =>
    match x.kind with
    | .mesh d addr ctr =>
      if x.data.length < x.len || !s.passes (meshRoute k d) (regionOfTile d) then .next s
      else
        let cs := chunksOf addr x.data x.poison (.count ctr)
        if s.regionRuns (regionOfTile d) then .next ((s.endSend k id).arrive d cs)
        else match meshLanding k d with
          | none => .next s
          | some key =>
            let (n, s1) := s.land key d cs
            .next (if n = cs.length then s1.endSend k id
              else s1.modTile k (fun t => t.modSend id (fun y => { y with
                kind := .mesh d (addr + 128 * n) ctr, len := y.len - 128 * n, data := y.data.drop (128 * n) })))
    | _ => .next s
  | none => .next s

end Sys2Proof.Machine
end

