-- ==== Sys2Proof/Machine/Crypto.lean ====
section
/-!
DEFINITION. The published cryptographic functions the manual names: SHA-512 and SHA-384 (R277, R389), HMAC and HKDF of SHA-384
and SHA-512, RSASSA-PKCS1-v1_5 (R277), AES-256-GCM (R221, R232, R352, R407), and AES-256-XTS (R215).  Their constants are those of the published
standards.
-/
namespace Sys2Proof.Machine

/-! ### SHA-2 -/

def shaK0 : List W64 :=
  [0x428A2F98D728AE22, 0x7137449123EF65CD, 0xB5C0FBCFEC4D3B2F, 0xE9B5DBA58189DBBC, 0x3956C25BF348B538, 0x59F111F1B605D019, 0x923F82A4AF194F9B, 0xAB1C5ED5DA6D8118, 0xD807AA98A3030242, 0x12835B0145706FBE, 0x243185BE4EE4B28C, 0x550C7DC3D5FFB4E2, 0x72BE5D74F27B896F, 0x80DEB1FE3B1696B1, 0x9BDC06A725C71235, 0xC19BF174CF692694]

def shaK1 : List W64 :=
  [0xE49B69C19EF14AD2, 0xEFBE4786384F25E3, 0x0FC19DC68B8CD5B5, 0x240CA1CC77AC9C65, 0x2DE92C6F592B0275, 0x4A7484AA6EA6E483, 0x5CB0A9DCBD41FBD4, 0x76F988DA831153B5, 0x983E5152EE66DFAB, 0xA831C66D2DB43210, 0xB00327C898FB213F, 0xBF597FC7BEEF0EE4, 0xC6E00BF33DA88FC2, 0xD5A79147930AA725, 0x06CA6351E003826F, 0x142929670A0E6E70]

def shaK2 : List W64 :=
  [0x27B70A8546D22FFC, 0x2E1B21385C26C926, 0x4D2C6DFC5AC42AED, 0x53380D139D95B3DF, 0x650A73548BAF63DE, 0x766A0ABB3C77B2A8, 0x81C2C92E47EDAEE6, 0x92722C851482353B, 0xA2BFE8A14CF10364, 0xA81A664BBC423001, 0xC24B8B70D0F89791, 0xC76C51A30654BE30, 0xD192E819D6EF5218, 0xD69906245565A910, 0xF40E35855771202A, 0x106AA07032BBD1B8]

def shaK3 : List W64 :=
  [0x19A4C116B8D2D0C8, 0x1E376C085141AB53, 0x2748774CDF8EEB99, 0x34B0BCB5E19B48A8, 0x391C0CB3C5C95A63, 0x4ED8AA4AE3418ACB, 0x5B9CCA4F7763E373, 0x682E6FF3D6B2B8A3, 0x748F82EE5DEFB2FC, 0x78A5636F43172F60, 0x84C87814A1F0AB72, 0x8CC702081A6439EC, 0x90BEFFFA23631E28, 0xA4506CEBDE82BDE9, 0xBEF9A3F7B2C67915, 0xC67178F2E372532B]

def shaK4 : List W64 :=
  [0xCA273ECEEA26619C, 0xD186B8C721C0C207, 0xEADA7DD6CDE0EB1E, 0xF57D4F7FEE6ED178, 0x06F067AA72176FBA, 0x0A637DC5A2C898A6, 0x113F9804BEF90DAE, 0x1B710B35131C471B, 0x28DB77F523047D84, 0x32CAAB7B40C72493, 0x3C9EBE0A15C9BEBC, 0x431D67C49C100D4C, 0x4CC5D4BECB3E42B6, 0x597F299CFC657E2A, 0x5FCB6FAB3AD6FAEC, 0x6C44198C4A475817]

/-- The round constants of SHA-512. -/
def shaK : List W64 := shaK0 ++ shaK1 ++ shaK2 ++ shaK3 ++ shaK4

/-- The initial hash values of SHA-512 and SHA-384. -/
def sha512Init : List W64 :=
  [0x6A09E667F3BCC908, 0xBB67AE8584CAA73B, 0x3C6EF372FE94F82B, 0xA54FF53A5F1D36F1, 0x510E527FADE682D1, 0x9B05688C2B3E6C1F, 0x1F83D9ABFB41BD6B, 0x5BE0CD19137E2179]

def sha384Init : List W64 :=
  [0xCBBB9D5DC1059ED8, 0x629A292A367CD507, 0x9159015A3070DD17, 0x152FECD8F70E5939, 0x67332667FFC00B31, 0x8EB44A8768581511, 0xDB0C2E0D64F98FA7, 0x47B5481DBEFA4FA4]

/-- The big-endian value of a byte string. -/
def beNat (bs : List Byte) : Nat := bs.foldl (fun a b => a * 256 + b.toNat) 0

/-- The `n` bytes of a value, highest byte first. -/
def beBytes (n v : Nat) : List Byte := (leBytes n v).reverse

def rotr (x : W64) (n : Nat) : W64 := x.rotateRight n

/-- The working variables of SHA-512. -/
structure ShaVars where
  a : W64
  b : W64
  c : W64
  d : W64
  e : W64
  f : W64
  g : W64
  h : W64

/-- One round. -/
def shaRound (v : ShaVars) (kw : W64 × W64) : ShaVars :=
  let s1 := rotr v.e 14 ^^^ rotr v.e 18 ^^^ rotr v.e 41
  let ch := (v.e &&& v.f) ^^^ (~~~v.e &&& v.g)
  let t1 := v.h + s1 + ch + kw.1 + kw.2
  let s0 := rotr v.a 28 ^^^ rotr v.a 34 ^^^ rotr v.a 39
  let maj := (v.a &&& v.b) ^^^ (v.a &&& v.c) ^^^ (v.b &&& v.c)
  ⟨t1 + (s0 + maj), v.a, v.b, v.c, v.d + t1, v.e, v.f, v.g⟩

/-- Extend a message schedule held newest first. -/
def shaExtend (w : List W64) : Nat → List W64
  | 0 => w
  | n + 1 =>
    let x15 := w.getD 14 0
    let x2 := w.getD 1 0
    let s0 := rotr x15 1 ^^^ rotr x15 8 ^^^ (x15 >>> 7)
    let s1 := rotr x2 19 ^^^ rotr x2 61 ^^^ (x2 >>> 6)
    shaExtend ((w.getD 15 0 + s0 + w.getD 6 0 + s1) :: w) n

/-- Compress one block of 128 bytes. -/
def shaBlock (h : List W64) (bs : List Byte) : List W64 :=
  let w0 := (List.range 16).map (fun i => BitVec.ofNat 64 (beNat ((bs.drop (8 * i)).take 8)))
  let w := (shaExtend w0.reverse 64).reverse
  let g := fun (i : Nat) => h.getD i 0
  let v := (List.zip shaK w).foldl shaRound ⟨g 0, g 1, g 2, g 3, g 4, g 5, g 6, g 7⟩
  [g 0 + v.a, g 1 + v.b, g 2 + v.c, g 3 + v.d, g 4 + v.e, g 5 + v.f, g 6 + v.g, g 7 + v.h]

/-- The padded message. -/
def shaPad (m : List Byte) : List Byte :=
  let z := (239 - m.length % 128) % 128
  m ++ [0x80#8] ++ List.replicate z 0 ++ beBytes 16 (8 * m.length)

/-- Compress `n` blocks. -/
def shaBlocks (h : List W64) (bs : List Byte) : Nat → List W64
  | 0 => h
  | n + 1 => shaBlocks (shaBlock h (bs.take 128)) (bs.drop 128) n

def shaCore (init : List W64) (m : List Byte) : List Byte :=
  let p := shaPad m
  (shaBlocks init p (p.length / 128)).flatMap (fun x => beBytes 8 x.toNat)

/-- SHA-512. -/
def sha512 (m : List Byte) : List Byte := shaCore sha512Init m

/-- SHA-384. -/
def sha384 (m : List Byte) : List Byte := (shaCore sha384Init m).take 48

/-! ### HMAC and HKDF with SHA-384 or SHA-512 (block of 128 bytes) -/

def hmac (hash : List Byte → List Byte) (key m : List Byte) : List Byte :=
  let k := if key.length > 128 then hash key else key
  let kp := k ++ List.replicate (128 - k.length) 0
  hash (kp.map (· ^^^ 0x5C#8) ++ hash (kp.map (· ^^^ 0x36#8) ++ m))

def hkdfBlocks (hash : List Byte → List Byte) (prk info prev : List Byte) (i : Nat) : Nat → List Byte
  | 0 => []
  | n + 1 =>
    let t := hmac hash prk (prev ++ info ++ leBytes 1 i)
    t ++ hkdfBlocks hash prk info t (i + 1) n

/-- HKDF-Expand to `len` bytes, at most 255 blocks of 48 bytes or more. -/
def hkdfExpand (hash : List Byte → List Byte) (prk info : List Byte) (len : Nat) : List Byte :=
  (hkdfBlocks hash prk info [] 1 (len / 48 + 1)).take len

/-- HKDF. -/
def hkdf (hash : List Byte → List Byte) (salt ikm info : List Byte) (len : Nat) : List Byte :=
  hkdfExpand hash (hmac hash salt ikm) info len

/-! ### RSASSA-PKCS1-v1_5 with SHA-512 (RFC 8017) -/

/-- Modular exponentiation over `bits` bits of the exponent. -/
def powMod (b e n : Nat) : Nat → Nat
  | 0 => 1 % n
  | k + 1 =>
    let r := powMod (b * b % n) (e / 2) n k
    if e % 2 = 1 then r * b % n else r

/-- The encoded message of a SHA-512 digest in `k` bytes. -/
def pkcs1 (k : Nat) (digest : List Byte) : List Byte :=
  let t := [0x30#8, 0x51, 0x30, 0x0D, 0x06, 0x09, 0x60, 0x86, 0x48, 0x01, 0x65, 0x03, 0x04, 0x02, 0x03, 0x05, 0x00, 0x04, 0x40] ++ digest
  [0x00#8, 0x01] ++ List.replicate (k - t.length - 3) 0xFF ++ [0x00#8] ++ t

/-- Verify a signature of 512 bytes under a 512-byte modulus and a 4-byte exponent. -/
def rsaVerify (modulus exponent sig msg : List Byte) : Bool :=
  let n := beNat modulus
  let s := beNat sig
  decide (1 < n) && decide (s < n) && beBytes 512 (powMod s (beNat exponent) n 32) == pkcs1 512 (sha512 msg)

/-! ### AES-256-GCM -/

/-- The S-box of AES: entry i is byte i. -/
def aesSbox : Nat := 0x16BB54B00F2D99416842E6BF0D89A18CDF2855CEE9871E9B948ED9691198F8E19E1DC186B95735610EF6034866B53E708A8BBD4B1F74DDE8C6B4A61C2E2578BA08AE7A65EAF4566CA94ED58D6D37C8E779E4959162ACD3C25C2406490A3A32E0DB0B5EDE14B8EE4688902A22DC4F816073195D643D7EA7C41744975FEC130CCDD2F3FF1021DAB6BCF5389D928F40A351A89F3C507F02F94585334D43FBAAEFD0CF584C4A39BECB6A5BB1FC20ED00D153842FE329B3D63B52A05A6E1B1A2C830975B227EBE28012079A059618C323C7041531D871F1E5A534CCF73F362693FDB7C072A49CAFA2D4ADF04759FA7DC982CA76ABD7FE2B670130C56F6BF27B777C63

def subByte (b : Byte) : Byte := BitVec.ofNat 8 (aesSbox / 2 ^ (8 * b.toNat))

/-- Multiplication by x in GF(2^8). -/
def xtime (b : Byte) : Byte := (b <<< 1) ^^^ (if b.msb then 0x1B#8 else 0)

def xorBytes (a b : List Byte) : List Byte := List.zipWith (· ^^^ ·) a b

/-- Extend the key schedule of AES-256, words newest first. -/
def aesExpand (w : List (List Byte)) (i : Nat) (rcon : Byte) : Nat → List (List Byte)
  | 0 => w
  | n + 1 =>
    let p := w.headD []
    let (t, rc) :=
      if i % 8 = 0 then
        let r := ((p.drop 1 ++ p.take 1).map subByte)
        (xorBytes r [rcon, 0, 0, 0], xtime rcon)
      else if i % 8 = 4 then (p.map subByte, rcon)
      else (p, rcon)
    aesExpand (xorBytes (w.getD 7 []) t :: w) (i + 1) rc n

/-- The 15 round keys of 16 bytes. -/
def aesKeys (key : List Byte) : List (List Byte) :=
  let w0 := (List.range 8).map (fun i => (key.drop (4 * i)).take 4)
  let w := (aesExpand w0.reverse 8 0x01 52).reverse
  (List.range 15).map (fun i => ((w.drop (4 * i)).take 4).flatten)

def shiftRows (s : List Byte) : List Byte := (List.range 16).map (fun i => s.getD ((i + 4 * (i % 4)) % 16) 0)

def mixColumns (s : List Byte) : List Byte :=
  (List.range 16).map (fun i =>
    let g := fun (r : Nat) => s.getD (i / 4 * 4 + (i + r) % 4) 0
    xtime (g 0) ^^^ (xtime (g 1) ^^^ g 1) ^^^ g 2 ^^^ g 3)

/-- One AES-256 block. -/
def aesBlock (keys : List (List Byte)) (b : List Byte) : List Byte :=
  let s0 := xorBytes b (keys.getD 0 [])
  let s := (List.range 13).foldl (fun s i => xorBytes (mixColumns (shiftRows (s.map subByte))) (keys.getD (i + 1) [])) s0
  xorBytes (shiftRows (s.map subByte)) (keys.getD 14 [])

/-- Multiplication in GF(2^128) as GCM orders its bits: `x` from its highest bit, `v` the other factor. -/
def ghashMul (x v z : Nat) : Nat → Nat
  | 0 => z
  | n + 1 =>
    let z' := if x / 2 ^ n % 2 = 1 then z ^^^ v else z
    let v' := if v % 2 = 1 then (v / 2) ^^^ (0xE1 * 2 ^ 120) else v / 2
    ghashMul x v' z' n

/-- GHASH over whole blocks. -/
def ghash (h : Nat) (bs : List Byte) (y : Nat) : Nat → Nat
  | 0 => y
  | n + 1 => ghash h (bs.drop 16) (ghashMul (y ^^^ beNat (bs.take 16)) h 0 128) n

def pad16 (bs : List Byte) : List Byte := bs ++ List.replicate ((16 - bs.length % 16) % 16) 0

/-- The key stream of counter mode from counter `c`. -/
def gcmStream (keys : List (List Byte)) (iv : List Byte) (c : Nat) : Nat → List Byte
  | 0 => []
  | n + 1 => aesBlock keys (iv ++ beBytes 4 c) ++ gcmStream keys iv (c + 1) n

/-- The tag of a ciphertext. -/
def gcmTag (keys : List (List Byte)) (iv aad ct : List Byte) : List Byte :=
  let h := beNat (aesBlock keys (List.replicate 16 0))
  let m := pad16 aad ++ pad16 ct ++ beBytes 8 (8 * aad.length) ++ beBytes 8 (8 * ct.length)
  xorBytes (beBytes 16 (ghash h m 0 (m.length / 16))) (aesBlock keys (iv ++ beBytes 4 1))

/-- AES-256-GCM encryption with a 96-bit IV: ciphertext and 16-byte tag. -/
def gcmEncrypt (key iv aad pt : List Byte) : List Byte × List Byte :=
  let keys := aesKeys key
  let ct := xorBytes pt (gcmStream keys iv 2 ((pt.length + 15) / 16))
  (ct, gcmTag keys iv aad ct)

/-- AES-256-GCM decryption: none where the tag does not verify. -/
def gcmDecrypt (key iv aad ct tag : List Byte) : Option (List Byte) :=
  let keys := aesKeys key
  if gcmTag keys iv aad ct = tag then some (xorBytes ct (gcmStream keys iv 2 ((ct.length + 15) / 16))) else none

/-! ### AES-256-XTS (IEEE 1619) -/

/-- The tweak of the next block of a data unit: multiplication by x in GF(2^128), lowest byte first. -/
def xtsNext (t : List Byte) : List Byte :=
  let v := fieldAt t 0 16 * 2
  leBytes 16 (if 2 ^ 128 ≤ v then (v - 2 ^ 128) ^^^ 0x87 else v)

/-- Encrypt `n` blocks of a data unit from the block whose tweak is `t`. -/
def xtsBlocks (keys : List (List Byte)) (t bs : List Byte) : Nat → List Byte
  | 0 => []
  | n + 1 => xorBytes (aesBlock keys (xorBytes (bs.take 16) t)) t ++ xtsBlocks keys (xtsNext t) (bs.drop 16) n

/-- AES-256-XTS encryption of whole blocks under a key pair of 64 bytes, the data key first. -/
def xtsEncrypt (pair : List Byte) (unit : Nat) (pt : List Byte) : List Byte :=
  xtsBlocks (aesKeys (pair.take 32)) (aesBlock (aesKeys (pair.drop 32)) (leBytes 16 unit)) pt (pt.length / 16)

end Sys2Proof.Machine
end

