-- ==== Sys2Proof/Machine/PlanImage.lean ====
section
/-!
DEFINITION. Plan images (R146 to R152, R295, R296, R301): reading, checking, variant selection and placement.
-/
namespace Sys2Proof.Machine

/-- Whether `n` bytes at a non-overlapping offset lie in the image; offsets are multiples of 8 (R146). -/
def spanOk (img : List Byte) (o n : Nat) : Bool := o % 8 == 0 && decide (o + n ≤ img.length)

/-- Whether bytes [o, o + n) are 0. -/
def zeroAt (img : List Byte) (o n : Nat) : Bool := fieldAt img o n == 0

def roundUp (n m : Nat) : Nat := (n + m - 1) / m * m

def ones (n : Nat) (bits : Nat) : Nat := (List.range bits).foldl (fun a i => a + n / 2 ^ i % 2) 0

/-- One entry of a tile table with the offsets of its parts. -/
structure TileEntry where
  setup : TileSetup
  codeOff : Nat
  deriving DecidableEq, Repr

/-- Read the tile entry at `o` (R149). -/
def readTile (img : List Byte) (o : Nat) : TileEntry :=
  let f := fun (a n : Nat) => fieldAt img (o + a) n
  { setup :=
      { x := f 0 1, y := f 1 1, preload := f 2 1, entry := f 4 4, codeBase := 0, codeBundles := f 0x10 4,
        pin := BitVec.ofNat 64 (f 0x18 8),
        inits := (List.range (f 0x14 4)).map (fun i =>
          let r := f 0x20 8 + 16 * i
          (fieldAt img (r + 8) 4, (img.drop (fieldAt img r 8)).take (fieldAt img (r + 12) 4))),
        binds := (List.range (f 0x30 2)).map (fun i => BitVec.ofNat 64 (fieldAt img (f 0x28 8 + 8 * i) 8)) },
    codeOff := f 8 8 }

/-- Whether a tile entry is well formed (R146, R149, R151). -/
def tileOk (img : List Byte) (used : BitVec 64) (o : Nat) : Bool :=
  let f := fun (a n : Nat) => fieldAt img (o + a) n
  let x := f 0 1
  let y := f 1 1
  decide (x < 64) && decide (y < 64) && used.getLsbD (regionOfTile (64 * y + x)) &&
  decide (f 2 1 ≤ 64) && zeroAt img (o + 3) 1 && zeroAt img (o + 0x32) 14 &&
  decide (1 ≤ f 0x10 4) && decide (f 0x10 4 ≤ 2 ^ 24) && decide (f 4 4 < f 0x10 4) && spanOk img (f 8 8) (32 * f 0x10 4) &&
  spanOk img (f 0x20 8) (16 * f 0x14 4) && decide (f 0x30 2 ≤ 64) && spanOk img (f 0x28 8) (8 * f 0x30 2) &&
  (List.range (f 0x14 4)).all (fun i =>
    let r := f 0x20 8 + 16 * i
    let len := fieldAt img (r + 12) 4
    let ad := fieldAt img (r + 8) 4
    spanOk img (fieldAt img r 8) len && ad % 8 == 0 && len % 8 == 0 && inLarder ad len) &&
  (List.range (f 0x30 2)).all (fun i =>
    let v : W64 := BitVec.ofNat 64 (fieldAt img (f 0x28 8 + 8 * i) 8)
    bindLegal v)

/-- The offset of variant `v`'s entry (R148). -/
def variantOff (img : List Byte) (v : Nat) : Nat := fieldAt img 0x20 8 + 64 * v

def variantShape (img : List Byte) (v : Nat) : BitVec 64 := BitVec.ofNat 64 (fieldAt img (variantOff img v) 8)
def variantUsed (img : List Byte) (v : Nat) : BitVec 64 := BitVec.ofNat 64 (fieldAt img (variantOff img v + 8) 8)

/-- The tile entries of a variant. -/
def variantTiles (img : List Byte) (v : Nat) : List TileEntry :=
  let o := variantOff img v
  (List.range (fieldAt img (o + 0x18) 4)).map (fun i => readTile img (fieldAt img (o + 0x10) 8 + 64 * i))

/-- Whether a variant entry is well formed (R148, R151). -/
def variantOk (img : List Byte) (v : Nat) : Bool :=
  let o := variantOff img v
  let used := variantUsed img v
  let n := fieldAt img (o + 0x18) 4
  let t := fieldAt img (o + 0x10) 8
  used &&& ~~~(variantShape img v) == 0 && decide (1 ≤ n) && decide (n ≤ 4096) && zeroAt img (o + 0x1C) 4 && zeroAt img (o + 0x28) 24 &&
  spanOk img t (64 * n) && (List.range n).all (fun i => tileOk img used (t + 64 * i)) &&
  (let ts := variantTiles img v
   let ks := ts.map (fun e => 64 * e.setup.y + e.setup.x)
   decide ((nub ks).length = ks.length) &&
   decide (fieldAt img (o + 0x20) 8 = 32 * (ts.map (fun e => e.setup.codeBundles)).foldl (· + ·) 0))

/-- Read engine `e` for variant `v` (R295). -/
def readEngine (img : List Byte) (v e : Nat) : Engine :=
  let o := fieldAt img 0x30 8 + 64 * e
  let f := fun (a n : Nat) => fieldAt img (o + a) n
  { decode := f 0 1 == 1, sample := f 1 1 % 2 == 1, spec := f 1 1 / 2 % 2 == 1, result := f 1 1 / 4 % 2 == 1,
    handover := if f 2 1 = 0xFF then none else some (f 2 1), boundary := f 3 1, slots := f 4 2, slotTokens := f 6 2,
    groups := f 8 2, maxPos := f 0x0C 4, vocab := f 0x10 4, inRec := f 0x14 4,
    regions := BitVec.ofNat 64 (fieldAt img (f 0x18 8 + 8 * v) 8) }

def readEngines (img : List Byte) (v : Nat) : List Engine := (List.range (fieldAt img 0x38 4)).map (readEngine img v)

/-- Whether a handover chain from an engine ends within the table. -/
def chainEnds (es : List Engine) (e : Nat) : Nat → Bool
  | 0 => false
  | n + 1 =>
    match es[e]? with
    | none => false
    | some x => match x.handover with | none => true | some h => chainEnds es h n

/-- Whether one engine entry is well formed (R295). -/
def engineOk (img : List Byte) (variants e : Nat) : Bool :=
  let o := fieldAt img 0x30 8 + 64 * e
  let f := fun (a n : Nat) => fieldAt img (o + a) n
  let x := readEngine img 0 e
  decide (f 0 1 ≤ 1) && decide (f 1 1 < 8) && decide (1 ≤ x.boundary) && decide (x.boundary ≤ 64) &&
  decide (x.boundary < fieldAt img 0x14 4) && decide (1 ≤ x.slots) && decide (x.slots ≤ 4096) && decide (1 ≤ x.slotTokens) &&
  decide (1 ≤ x.groups) && decide (x.groups ≤ 256) && zeroAt img (o + 0x0A) 2 && decide (1 ≤ x.maxPos) && decide (x.maxPos ≤ 2 ^ 24) &&
  (if x.sample then decide (2 ≤ x.vocab) && decide (x.vocab ≤ 2 ^ 20) else x.vocab == 0) && x.inRec % 64 == 0 &&
  spanOk img (f 0x18 8) (8 * variants) && zeroAt img (o + 0x20) 32 &&
  !(x.spec && (!x.decode || decide (x.slotTokens < 2))) && !(x.sample && x.result)

/-- Whether the engine table is well formed (R295, R296). -/
def enginesOk (img : List Byte) (variants : Nat) : Bool :=
  let n := fieldAt img 0x38 4
  let es := readEngines img 0
  spanOk img (fieldAt img 0x30 8) (64 * n) && decide (1 ≤ n) && decide (n ≤ 8) &&
  (List.range n).all (engineOk img variants) &&
  es.all (fun e => es.all (fun e' => e.boundary == e'.boundary)) &&
  decide ((es.map (·.slots)).foldl (· + ·) 0 ≤ 16384) &&
  (List.range n).all (fun i => chainEnds es i (n + 1)) &&
  es.all (fun e => match e.handover with
    | none => true
    | some h => match es[h]? with
      | none => false
      | some t => e.groups == t.groups && e.maxPos == t.maxPos && e.spec == t.spec) &&
  (List.range variants).all (fun v =>
    let ms := (readEngines img v).map (·.regions)
    ms.all (fun m => m &&& ~~~(variantUsed img v) == 0) &&
    (List.range ms.length).all (fun i => (List.range i).all (fun j => ms.getD i 0 &&& ms.getD j 0 == 0)))

/-- The link assumption table (R150). -/
def readLinks (img : List Byte) : List LinkAssume :=
  let o := fieldAt img 0x28 8
  if o = 0 then [] else (List.range 24).map (fun i =>
    let v := fieldAt img (o + 8 * i) 8
    ⟨bitsOf v 31 0, bitsOf v 39 32, bitsOf v 40 40 == 1⟩)

/-- Check 1 of R151. -/
def imageOk (img : List Byte) (operand : Nat) : Bool :=
  let f := fieldAt img
  let variants := f 0x1C 2
  decide (256 ≤ img.length) && img.length % 64 == 0 && f 8 8 == img.length && f 8 8 == operand &&
  img.take 4 == [0x4C#8, 0x4D, 0x50, 0x49] && decide (f 4 1 ≤ 1) && decide (f 5 1 < 4) &&
  decide (10 ≤ f 0x10 1) && decide (f 0x10 1 ≤ 14) && zeroAt img 0x11 1 && decide (16 ≤ f 0x12 2) && decide (f 0x12 2 ≤ 256) &&
  decide (1 ≤ f 0x14 4) && decide (1 ≤ f 0x18 4) && decide (f 0x18 4 ≤ 32768) && (f 4 1 == 0 || f 0x18 4 == 1) &&
  decide (1 ≤ variants) && decide (variants ≤ 64) && zeroAt img 0x1E 2 && zeroAt img 0x3C 4 && zeroAt img 0xC0 64 &&
  spanOk img (f 0x20 8) (64 * variants) && (List.range variants).all (variantOk img) &&
  (if f 0x18 4 = 1 ∧ f 0x28 8 = 0 then true
   else f 0x28 8 != 0 && spanOk img (f 0x28 8) 192 && (List.range 24).all (fun i => bitsOf (f (f 0x28 8 + 8 * i) 8) 63 41 == 0)) &&
  enginesOk img variants

/-- The SHA-512 of the image with its DIGEST field taken as zero (R147). -/
def imageDigest (img : List Byte) : List Byte := sha512 (img.take 0x40 ++ List.replicate 64 0 ++ img.drop 0x80)

/-- Variant selection (R152): the variant, and whether a better one was skipped for a fence. -/
def selectVariant (img : List Byte) (shape fenced : BitVec 64) : Option Nat × Bool :=
  (List.range (fieldAt img 0x1C 2)).foldl (fun (r : Option Nat × Bool) v =>
    if variantShape img v ≠ shape then r
    else if variantUsed img v &&& fenced ≠ 0 then (r.1, true)
    else match r.1 with
      | none => (some v, r.2)
      | some b => if ones (variantUsed img b).toNat 64 < ones (variantUsed img v).toNat 64 then (some v, r.2) else r) (none, false)

/-! ### The plan area (R284, R301) -/

/-- Bytes of an engine's slot table, draw records and tree records (R301). -/
def Engine.tableBytes (e : Engine) : Nat := roundUp (e.slots * 64) 4096
def Engine.drawBytes (e : Engine) : Nat := roundUp (e.slots * 128) 4096
def Engine.areaBytes (e : Engine) : Nat := e.tableBytes + e.drawBytes + (if e.spec then e.slots * 4096 else 0)

/-- SA_BYTES. -/
def stepAreaBytes (es : List Engine) : Nat := 131072 + (es.map Engine.areaBytes).foldl (· + ·) 0

/-- Place the tiles' code, each at a multiple of 2,048, and answer the end. -/
def placeCode (base : Nat) : List TileEntry → List TileSetup × Nat
  | [] => ([], base)
  | t :: ts =>
    let b := roundUp base 2048
    let (r, e) := placeCode (b + 32 * t.setup.codeBundles) ts
    ({ t.setup with codeBase := b } :: r, e)

/-- The set-up data of R151 as it stands in the plan area: the tile table, then for each tile its initialisation records, the
data they name and its initial bindings.  The manual fixes what is copied and where it starts, not its inner layout. -/
def setupData (img : List Byte) (v : Nat) : List Byte :=
  let o := variantOff img v
  let n := fieldAt img (o + 0x18) 4
  let t := fieldAt img (o + 0x10) 8
  (img.drop t).take (64 * n) ++ (List.range n).flatMap (fun i =>
    let e := t + 64 * i
    let cnt := fieldAt img (e + 0x14) 4
    let io := fieldAt img (e + 0x20) 8
    (img.drop io).take (16 * cnt) ++
    (List.range cnt).flatMap (fun j => (img.drop (fieldAt img (io + 16 * j) 8)).take (fieldAt img (io + 16 * j + 12) 4)) ++
    (img.drop (fieldAt img (e + 0x28) 8)).take (8 * fieldAt img (e + 0x30) 2))

/-- The loaded plan of a variant in a plan area, with the bytes to write (address, bytes); none where it does not fit. -/
def buildPlan (img : List Byte) (v planBase planBytes : Nat) : Option (Plan × List (Nat × List Byte)) :=
  let es := readEngines img v
  let ts := variantTiles img v
  let (setups, codeEnd) := placeCode planBase ts
  let sd := setupData img v
  let sdBase := roundUp codeEnd 4096
  let sa := (planBase + planBytes - stepAreaBytes es) / 4096 * 4096
  if planBytes < stepAreaBytes es ∨ sa < sdBase + sd.length then none
  else
    let writes := (List.zip setups ts).map (fun p => (p.1.codeBase, (img.drop p.2.codeOff).take (32 * p.1.codeBundles)))
    some ({ elreri := fieldAt img 4 1 == 1, slipTol := fieldAt img 5 1 % 2 == 1, det := fieldAt img 5 1 / 2 % 2 == 1,
            beatK := fieldAt img 0x10 1, slack := fieldAt img 0x12 2, stepBeats := fieldAt img 0x14 4,
            domainSize := fieldAt img 0x18 4, variant := v, used := variantUsed img v,
            tiles := setups.map (fun t => { t with inits := [], binds := [] }), engines := es, links := readLinks img,
            digest := (img.drop 0x40).take 64, stepArea := sa, setupBase := sdBase, setupBytes := sd.length }, writes ++ [(sdBase, sd)])

/-- The slot-table entry, draw record and tree record of a slot of engine `e`. -/
def Plan.engineBase (p : Plan) (e : Nat) : Nat :=
  p.stepArea + 131072 + ((p.engines.take e).map Engine.areaBytes).foldl (· + ·) 0

def Plan.slotAddr (p : Plan) (e i : Nat) : Nat := p.engineBase e + 64 * i
def Plan.drawAddr (p : Plan) (e i : Nat) : Nat :=
  p.engineBase e + ((p.engines[e]?).map Engine.tableBytes).getD 0 + 128 * i
def Plan.treeAddr (p : Plan) (e i : Nat) : Nat :=
  p.engineBase e + ((p.engines[e]?).map (fun x => x.tableBytes + x.drawBytes)).getD 0 + 4096 * i

/-- ROW_ENTRIES (R305), for P positions a shelf. -/
def Engine.rowNeed (e : Engine) (p : Nat) : Nat := e.groups * ((e.maxPos + p - 1) / p + (if e.spec then 64 else 0))
def Plan.rowEntries (pl : Plan) (p : Nat) : Nat := (pl.engines.map (fun e => e.rowNeed p)).foldl max 0

end Sys2Proof.Machine
end

