-- ==== Sys2Proof/Machine/QueueOps.lean ====
section
/-!
DEFINITION. Descriptors, queues and completions as every descriptor uses them (R324, R326, R328 to R339).
-/
namespace Sys2Proof.Machine

/-! ### Statuses and reasons (R271, R311, R335, R336) -/

def stOk : Nat := 0x00
def stEngineAbsent : Nat := 0x01
def stCancelled : Nat := 0x02
def stWaitCycle : Nat := 0x03
def stWaitTimeout : Nat := 0x04
def stBad : Nat := 0x05
def stGrade : Nat := 0x06
def stSignature : Nat := 0x07
def stDigest : Nat := 0x08
def stShard : Nat := 0x09
def stAdapterBusy : Nat := 0x0A
def stTimingBreak : Nat := 0x0B
/-- No rule of the manual ends a descriptor with LINK_LATE: a step that a late crate fails ends with TIMING_BREAK (R424; log entry 70). -/
def stLinkLate : Nat := 0x0C
def stDomainFault : Nat := 0x0D
def stFenced : Nat := 0x0E
def stHatchOwner : Nat := 0x0F
def stVaultLate : Nat := 0x10
def stLinkMismatch : Nat := 0x11
def stDegraded : Nat := 0x12

/-- The reason codes a refusal carries; the numbers order them (R271). -/
def rsGeometry : Nat := 0x01
def rsState : Nat := 0x02
def rsBusy : Nat := 0x03
def rsNoKey : Nat := 0x04
def rsNoSpace : Nat := 0x05
def rsManifest : Nat := 0x06
def rsTag : Nat := 0x07
def rsLayout : Nat := 0x08
def rsStep : Nat := 0x09
def rsAdapter : Nat := 0x0A
def rsImage : Nat := 0x0B
def rsReqId : Nat := 0x0C
def rsLimit : Nat := 0x0D
def rsEngine : Nat := 0x0E
def rsLength : Nat := 0x0F
def rsDet : Nat := 0x10
def rsTree : Nat := 0x11
def rsStart : Nat := 0x12
def rsAtStep : Nat := 0x13
def rsOpcode : Nat := 0x14
def rsFlag : Nat := 0x15
def rsHatch : Nat := 0x16
def rsMedia : Nat := 0x17
def rsDomain : Nat := 0x18
def rsHatchKey : Nat := 0x19
def rsAudit : Nat := 0x1A
def rsCheckpoint : Nat := 0x1B
def rsOpFrame : Nat := 0x1C
def rsOpOwner : Nat := 0x1D

/-- A list of conditional reasons. -/
def reasons (l : List (Bool × Nat)) : List Nat := (l.filter (·.1)).map (·.2)

/-- The lowest of the reasons that apply (R271). -/
def lowest : List Nat → Option Nat
  | [] => none
  | x :: xs => some (xs.foldl min x)

/-! ### The ports of a function (R324) -/

/-- The port a function is presented on: QCFG_PORTn.CURRENT. -/
def State.portOf (s : State) (fn : Nat) : Nat := if s.field fn 0x10010 8 8 = 1 then 1 else 0

/-- Whether a function reaches its host: its port is up and it does not wait for memory space after a failover. -/
def State.reachable (s : State) (fn : Nat) : Bool :=
  s.field fn (0x10008 + 8 * s.portOf fn) 0 0 == 1 && !s.host.moved.contains fn

/-- The writes of a function that no completed flushing read covers, after one more write: a completion entry is made visible by one, and
a hatch flag is preceded by one that covers its slot (R324, R332, R347). -/
def uncovered (fn : Nat) (o : Output) (l : List (Nat × Output)) : List (Nat × Output) :=
  match o with
  | .completion _ _ _ _ => l.filter (fun w => w.1 != fn)
  | .hatchFlag _ _ _ _ => l.filter (fun w => w.1 != fn) ++ [(fn, o)]
  | .hatchSlot _ _ _ _ => l ++ [(fn, o)]
  | _ => l

/-- A write towards a function's host: it waits while the function does not reach its host (R324). -/
def State.toHost (s : State) (fn : Nat) (o : Output) : State :=
  if s.reachable fn then { s.emit o with host := { s.host with recent := uncovered fn o s.host.recent } }
  else { s with host := { s.host with unflushed := s.host.unflushed ++ [(fn, o, none)] } }

/-! ### Queues -/

def State.queue (s : State) (fn q : Nat) : Queue := mget {} s.host.queues (fn * 64 + q)

def State.setQueue (s : State) (fn q : Nat) (x : Queue) : State :=
  { s with host := { s.host with queues := mset {} s.host.queues (fn * 64 + q) x } }

/-- The register offsets of a queue's control and positions (R361). -/
def qctl (q : Nat) : Nat := 0x10400 + 32 * q
def qpos (q : Nat) : Nat := 0x10418 + 32 * q

def State.queueOn (s : State) (fn q : Nat) : Bool := s.field fn (qctl q) 0 0 == 1

/-- The ring size. -/
def State.ringSize (s : State) (fn q : Nat) : Nat := 2 ^ s.field fn (qctl q) 7 3

/-! ### Descriptors (R331) -/

/-- `n` bytes of a descriptor at offset `o`. -/
def DescRef.byte (d : DescRef) (o n : Nat) : Nat := fieldAt d.bytes o n

/-- `n` bytes of the operand area at offset `o` (R271). -/
def DescRef.opd (d : DescRef) (o n : Nat) : Nat := fieldAt d.bytes (16 + o) n

def DescRef.opcode (d : DescRef) : Nat := d.byte 0 1
def DescRef.fence (d : DescRef) : Bool := d.byte 1 1 % 2 == 1
def DescRef.int (d : DescRef) : Bool := d.byte 1 1 / 2 % 2 == 1
def DescRef.doneFlag (d : DescRef) : Nat := d.byte 8 2

/-- The key of the context a descriptor names in operand byte 0: in domain mode the whole device is one partition (R267). -/
def DescRef.ctxKey (d : DescRef) : Nat := 256 * d.fn + d.opd 0 1

/-- Whether every operand byte that a layout does not define is 0 (R331). -/
def DescRef.reservedOk (d : DescRef) (layout : List (Nat × Nat)) : Bool :=
  (List.range 48).all (fun i =>
    layout.any (fun p => decide (p.1 ≤ i) && decide (i < p.1 + p.2)) || d.bytes.getD (16 + i) 0 == 0)

/-- The opcodes of R334. -/
def knownOpcodes : List Nat :=
  [0x01, 0x02, 0x03, 0x10, 0x11, 0x12, 0x13, 0x14, 0x15, 0x16, 0x20, 0x21, 0x22, 0x30, 0x31, 0x40, 0x41, 0x42, 0x50, 0x51, 0x60, 0x70]

/-- The header checks of R331: the reason a descriptor is refused for. -/
def DescRef.headerFault (d : DescRef) : Option Nat :=
  if !knownOpcodes.contains d.opcode then some rsOpcode
  else if d.byte 1 1 ≥ 4 ∨ d.byte 3 1 ≠ 0 ∨ d.byte 10 6 ≠ 0 then some rsGeometry
  else if d.doneFlag ≠ 0xFFFF ∧ d.doneFlag ≥ 4096 then some rsFlag
  else none

/-! ### Sync flags (R339) -/

/-- The value of a sync flag. -/
def State.syncFlag (s : State) (fn n : Nat) : Nat := (s.reg fn (0x18000 + 8 * n)).toNat

/-- The WAIT that a queue is executing. -/
def Queue.waitNow (q : Queue) : Option DescRef := q.executing.find? (fun d => d.opcode == 0x02)

/-- Write a sync flag; WAITs whose VALUE it reaches note the value they observe (R339, R340). -/
def State.setSyncFlag (s : State) (fn n v : Nat) : State :=
  let s1 := s.setReg fn (0x18000 + 8 * n) (BitVec.ofNat 64 v)
  { s1 with host := { s1.host with queues := s1.host.queues.map (fun (p : Nat × Queue) =>
    match p.2.waitNow with
    | some d => (p.1, if p.1 / 64 = fn ∧ d.opd 0 2 = n ∧ d.opd 8 8 ≤ v ∧ p.2.hit = none then { p.2 with hit := some v } else p.2)
    | none => p) } }

/-- Add to a sync flag: it saturates and raises no event (R339). -/
def State.addSyncFlag (s : State) (fn n v : Nat) : State := s.setSyncFlag fn n (satAdd 64 (s.syncFlag fn n) v)

/-! ### Completion (R332) -/

/-- A completion entry goes out, and once its flushing read has made it visible DONE_FLAG counts; both wait while the function does not
reach its host (R324, R332). -/
def State.entryOut (s : State) (fn : Nat) (o : Output) (flag : Nat) : State :=
  if s.reachable fn then
    let s1 := s.toHost fn o
    if flag < 4096 then s1.addSyncFlag fn flag 1 else s1
  else { s with host := { s.host with unflushed := s.host.unflushed ++ [(fn, o, if flag < 4096 then some flag else none)] } }

/-- Write the completion entry of an executing descriptor, add 1 to its DONE_FLAG and raise its vector; a control-core fault stops
all completion (R435). -/
def State.complete (s : State) (d : DescRef) (st result : Nat) : State :=
  if s.faults.coreFault || !(s.queue d.fn d.queue).executing.any (fun x => x.order == d.order) then s
  else
    let q := s.queue d.fn d.queue
    let size := s.ringSize d.fn d.queue
    let tail := s.field d.fn (qpos d.queue) 47 32
    let phase := s.field d.fn (qpos d.queue) 48 48
    let entry := leBytes 8 result ++ leBytes 2 d.index ++ leBytes 1 st ++ leBytes 1 phase ++ (d.bytes.drop 4).take 4
    let s1 := s.setQueue d.fn d.queue
      { q with executing := q.executing.filter (fun x => decide (x.order ≠ d.order)), uncovered := q.uncovered + 1 }
    let s2 := s1.setField d.fn (qpos d.queue) 47 32 ((tail + 1) % size)
    let s3 := if tail + 1 = size then s2.setField d.fn (qpos d.queue) 48 48 (1 - phase) else s2
    let s4 := s3.entryOut d.fn (.completion d.fn d.queue tail entry) d.doneFlag
    if d.int then s4.toHost d.fn (.interrupt d.fn d.queue) else s4

/-- A value of a descriptor's completion that the manual does not state: a free value, which rests on the descriptor, its place in its queue
and the status, and so on nothing that R397 lets affect the time alone (log entries 36, 68). -/
def DescRef.open_ (d : DescRef) (st : Nat) : Nat :=
  Config.unstated 7 ((((leNat d.bytes * 2 ^ 32 + d.index) * 64 + d.queue) * 8 + d.fn) * 32 + st)

/-- Complete with a status for which the manual states no result value: a free value (log entry 36). -/
def State.completeOpen (s : State) (d : DescRef) (st : Nat) : State := s.complete d st (d.open_ st % 2 ^ 64)

/-- Complete a descriptor that there may be. -/
def State.completeOpt (s : State) (d : Option DescRef) (st v : Nat) : State :=
  match d with
  | some d => s.complete d st v
  | none => s

/-- Refuse a descriptor with a reason code (R271). -/
def State.refuse (s : State) (d : DescRef) (reason : Nat) : State := s.complete d stBad reason

/-- Refuse with the lowest reason that applies, else go on. -/
def State.check (s : State) (d : DescRef) (l : List Nat) (go : State → State) : State :=
  match lowest l with
  | some r => s.refuse d r
  | none => go s

/-- The work of a descriptor is done; DESCRIPTOR_COMPLETE writes its completion. -/
def State.finish (s : State) (d : DescRef) (st result : Nat) : State :=
  { s with host := { s.host with done := s.host.done ++ [(d, st, result)] } }

/-! ### Execution (R330, R337) -/

/-- Whether a queue's next descriptor may execute, leaving class order aside. -/
def State.executable (s : State) (fn q : Nat) : Bool :=
  let x := s.queue fn q
  !x.waiting.isEmpty && !(x.held && x.waiting.length == 1) && s.queueOn fn q && !x.stopped && !s.faults.coreFault &&
    (match x.blocker with
     | none => true
     | some o => !x.executing.any (fun d => d.order == o))

/-- The class of a queue and the arrival of its doorbell. -/
def State.queueRank (s : State) (fn q : Nat) : Nat × Nat := (s.field fn (qctl q) 2 1, ((s.queue fn q).bell).getD 0)

/-- Whether no other queue of the device for which a test holds comes before this one (R337). -/
def State.firstQueue (s : State) (fn q : Nat) (p : Nat → Nat → Bool) : Bool :=
  let me := s.queueRank fn q
  s.host.queues.all (fun e =>
    let fn' := e.1 / 64
    let q' := e.1 % 64
    if e.1 = fn * 64 + q || !p fn' q' then true
    else
      let r := s.queueRank fn' q'
      decide (me.1 < r.1) || (me.1 == r.1 && decide (me.2 ≤ r.2)))

/-- A descriptor's opcode, and a byte of its operands. -/
def opIs (n : Nat) (bs : List Byte) : Bool := fieldAt bs 0 1 == n
def opdByte (bs : List Byte) (o : Nat) : Nat := fieldAt bs (16 + o) 1

/-- The next descriptor of a queue, if it may execute now and satisfies a test. -/
def State.nextDesc (s : State) (fn q : Nat) (ok : List Byte → Bool) : Option Fetched :=
  if s.executable fn q && s.firstQueue fn q s.executable then
    match (s.queue fn q).waiting with
    | f :: _ => if ok f.bytes then some f else none
    | [] => none
  else none

/-- The descriptor starts to execute: it leaves the fetched ones and takes the next execution number (R330). -/
def State.begin (s : State) (fn q : Nat) (f : Fetched) : DescRef × State :=
  let x := s.queue fn q
  let d : DescRef := ⟨fn, q, f.index, f.bytes, s.host.order, s.clk.tick, f.frame⟩
  let wait := d.opcode == 0x02 || d.fence
  let s1 := s.setQueue fn q { x with waiting := x.waiting.drop 1, executing := x.executing ++ [d],
                                     blocker := if wait then some d.order else none,
                                     hit := none }
  (d, { s1 with host := { s1.host with order := s1.host.order + 1 } })

/-- Execute the next descriptor of a queue: the header checks come first (R331). -/
def State.execDesc (s : State) (fn q : Nat) (ok : List Byte → Bool) (run : DescRef → State → State) : State :=
  match s.nextDesc fn q ok with
  | none => s
  | some f =>
    let (d, s1) := s.begin fn q f
    match d.headerFault with
    | some r => s1.refuse d r
    | none => run d s1

/-- An event that falls due at a tick: the tick count is at least that (log entry 2). -/
def State.advanceTo (s : State) (t : Nat) : State :=
  { s with clk := { s.clk with tick := max s.clk.tick t } }

/-- Ticks in a microsecond and in a millisecond. -/
def ticksPerUs : Nat := 7000
def ticksPerMs : Nat := 7000000

/-! ### Hatch slots (R346 to R352) -/

def State.hatch (s : State) (fn h : Nat) : Hatch := mget {} s.host.hatches (fn * 16 + h)

def State.setHatch (s : State) (fn h : Nat) (x : Hatch) : State :=
  { s with host := { s.host with hatches := mset {} s.host.hatches (fn * 16 + h) x } }

def hcfg (h : Nat) : Nat := 0x20100 + 64 * h

def State.hatchOn (s : State) (fn h : Nat) : Bool := s.field fn (hcfg h) 0 0 == 1

/-- Bytes of a slot, and of its payload in the hatch's mode (R352). -/
def State.slotBytes (s : State) (fn h : Nat) : Nat := 2 ^ s.field fn (hcfg h) 8 4
def State.slotPlain (s : State) (fn h : Nat) : Bool := s.field fn (hcfg h) 10 10 == 1
def State.payloadBytes (s : State) (fn h : Nat) : Nat :=
  if s.slotPlain fn h then s.slotBytes fn h else s.slotBytes fn h - 32

/-- SLOTS and NEXT. -/
def State.slotCount (s : State) (fn h : Nat) : Nat := s.field fn (hcfg h + 0x18) 24 0
def State.nextSlotOf (s : State) (fn h : Nat) : Nat := s.field fn (hcfg h + 0x20) 23 0

/-- Slots in DEVICE ownership in a row from NEXT on (R349). -/
def State.slotsReady (s : State) (fn h : Nat) : Nat :=
  let x := s.hatch fn h
  let n := max 1 (s.slotCount fn h)
  ((List.range x.owned.length).takeWhile (fun i => x.owned.contains ((s.nextSlotOf fn h + i) % n))).length

/-- Whether a job carries a header in every slot. -/
def HatchJob.framed (j : HatchJob) : Bool := match j.kind with | .frame _ _ _ => true | .close _ => true | _ => false

/-- Data bytes of a job in one slot, and the slots it needs. -/
def HatchJob.chunk (j : HatchJob) (payload : Nat) : Nat := max 1 (if j.framed then payload - 32 else payload)
def HatchJob.slots (j : HatchJob) (payload : Nat) : Nat := max 1 ((j.data.length + j.chunk payload - 1) / j.chunk payload)

/-- Whether the data that a job puts into its slot number `k` carries poison (R348). -/
def HatchJob.badSlot (j : HatchJob) (payload k : Nat) : Bool :=
  j.poison.any (fun p => decide (p.1 < (k + 1) * j.chunk payload) && decide (k * j.chunk payload < p.2))

/-- The hatch key of a context (R352). -/
def State.hatchKey (s : State) (c : Nat) : Option (List Byte) :=
  (mget {} s.mem.keys ((s.ctx c).keySlot)).hatchKey

/-- The reason a descriptor that names a hatch is refused for: disabled, of the wrong direction, or encrypted without a
key (R350, R352). -/
def State.hatchFault (s : State) (fn h c dir : Nat) : List Nat :=
  if h ≥ 16 || !s.hatchOn fn h || s.field fn (hcfg h) 1 1 != dir then [rsHatch]
  else if !s.slotPlain fn h && (s.hatchKey c).isNone then [rsHatchKey] else []

end Sys2Proof.Machine
end

