-- ==== Sys2Proof/Machine/Requests.lean ====
section
/-!
DEFINITION. Requests at a step boundary: shelves and rows, outputs, stops, retirement, adapters and admission
(R217, R218, R290 to R293, R300 to R310, R318 to R320, R413).
-/
namespace Sys2Proof.Machine

/-! ### Access -/

def State.modCtx (s : State) (c : Nat) (f : Ctx → Ctx) : State := s.setCtx c (f (s.ctx c))

def State.req (s : State) (c id : Nat) : Option Req := mfind (s.ctx c).reqs id

def State.putReq (s : State) (c : Nat) (r : Req) : State := s.modCtx c (fun x => { x with reqs := mput x.reqs r.id r })

def State.modReq (s : State) (c id : Nat) (f : Req → Req) : State :=
  match s.req c id with
  | some r => s.putReq c (f r)
  | none => s

def State.modStep (s : State) (c : Nat) (f : StepState → StepState) : State := s.modCtx c (fun x => { x with step := f x.step })

def Ctx.engine (x : Ctx) (e : Nat) : Option Engine := x.plan.bind (fun p => p.engines[e]?)

/-- The requests of a context in some order, by a test. -/
def Ctx.reqsBy (x : Ctx) (p : Req → Bool) : List Req := (x.reqs.map (·.2)).filter p

/-- Insert into a list of requests by order. -/
def insertByOrder (r : Req) : List Req → List Req
  | [] => [r]
  | x :: xs => if r.order < x.order then r :: x :: xs else x :: insertByOrder r xs

def byOrder (l : List Req) : List Req := l.foldl (fun a r => insertByOrder r a) []

/-- A request's place in slot-table order: its engine's table, then its slot. -/
def Req.tablePlace (r : Req) : Nat := r.engine * 4096 + r.slot.getD 0

/-- Insert into a list of requests by place in the slot tables. -/
def insertByPlace (r : Req) : List Req → List Req
  | [] => [r]
  | x :: xs => if r.tablePlace < x.tablePlace then r :: x :: xs else x :: insertByPlace r xs

/-- Requests in slot-table order (R349). -/
def byPlace (l : List Req) : List Req := l.foldl (fun a r => insertByPlace r a) []

/-! ### Shelves and the shelf map (R217, R218, R305) -/

def State.mapAddr (s : State) (c i : Nat) : Nat := (s.ctx c).base + (s.ctx c).params.mapBase + 8 * i

def State.mapEntry (s : State) (c i : Nat) : Nat := readNat s.mem.cellar (s.mapAddr c i) 8

def State.setMapEntry (s : State) (c i v : Nat) : State := s.cellarWrite (s.mapAddr c i) (leBytes 8 v) false

/-- ROW_ENTRIES and ⌈MAX_POS / P⌉ (R305). -/
def Ctx.rowEntries (x : Ctx) : Nat := (x.plan.map (fun p => p.rowEntries x.params.shelfPos)).getD 0
def Ctx.posEntries (x : Ctx) (e : Engine) : Nat := (e.maxPos + x.params.shelfPos - 1) / x.params.shelfPos

/-- The map entry of position `p` of layer group `g`, and of the draft slot of node `k`, in a row. -/
def Ctx.posEntry (x : Ctx) (e : Engine) (row g p : Nat) : Nat :=
  row * x.rowEntries + g * x.posEntries e + p / x.params.shelfPos
def Ctx.draftEntry (x : Ctx) (e : Engine) (row g k : Nat) : Nat :=
  row * x.rowEntries + e.groups * x.posEntries e + 64 * g + (k - 1)

/-- A shelf changes state: none FREE_CLEAN, false FREE_DIRTY, true MAPPED. -/
def State.setShelf (s : State) (c sh : Nat) (st : Option Bool) : State :=
  s.modCtx c (fun x => { x with shelves := match st with | some b => mput x.shelves sh b | none => mdel x.shelves sh })

/-- A map update clears an entry; the shelf it named becomes FREE_DIRTY (R218). -/
def State.clearEntry (s : State) (c i : Nat) : State :=
  let v := s.mapEntry c i
  if bitsOf v 24 24 = 1 then (s.setMapEntry c i 0).setShelf c (bitsOf v 23 0) (some false) else s

/-- Clear every entry of a row (R306). -/
def State.clearRow (s : State) (c row : Nat) : State :=
  let n := (s.ctx c).rowEntries
  (List.range n).foldl (fun u j => u.clearEntry c (row * n + j)) s

/-- The shelf a map update takes: the lowest FREE_CLEAN one; without one, the lowest FREE_DIRTY shelf, whose zeroing the
boundary work waits for (R218, R300). -/
def State.takeShelf (s : State) (c : Nat) : Option (Nat × State) :=
  let x := s.ctx c
  let all := List.range x.params.shelfCount
  match all.find? (fun i => (mfind x.shelves i).isNone) with
  | some i => some (i, s.setShelf c i (some true))
  | none =>
    match all.find? (fun i => mfind x.shelves i == some false) with
    | some i => some (i, (s.cellarZero (x.base + x.params.shelfBase + 131072 * i) 131072).setShelf c i (some true))
    | none => none

/-- Map a shelf to an entry that has none, and write its USED and DRAFT bits. -/
def State.mapShelf (s : State) (c i used : Nat) (draft : Bool) : State :=
  let v := s.mapEntry c i
  let bits := fun (sh : Nat) => sh + 2 ^ 24 + (if draft then 2 ^ 25 else 0) + used * 2 ^ 32
  if bitsOf v 24 24 = 1 then s.setMapEntry c i (bits (bitsOf v 23 0))
  else match s.takeShelf c with
    | some (sh, s1) => s1.setMapEntry c i (bits sh)
    | none => s

/-- Set USED of a valid entry to the positions committed in it (R217, R305). -/
def State.refreshUsed (s : State) (c i used : Nat) : State :=
  let v := s.mapEntry c i
  if bitsOf v 24 24 = 1 ∧ bitsOf v 47 32 ≠ used then s.setMapEntry c i (bitsOf v 25 0 + used * 2 ^ 32) else s

/-- Map what a step of a request writes: `n` positions from `pos` and the draft slots of `nodes` nodes; every other entry of the row that
holds committed positions shows how many (R217, R305). -/
def State.mapStep (s : State) (c : Nat) (r : Req) (e : Engine) (pos n nodes : Nat) : State :=
  match r.row with
  | none => s
  | some row =>
    let x := s.ctx c
    let p := x.params.shelfPos
    let first := pos / p
    let last := (pos + n + p - 1) / p
    let s1 := (List.range e.groups).foldl (fun u g =>
      (List.range (max last ((r.pos + p - 1) / p))).foldl (fun u j =>
        let i := x.posEntry e row g (j * p)
        let used := min p (r.pos - j * p)
        if first ≤ j ∧ j < last then u.mapShelf c i used false else u.refreshUsed c i used) u) s
    (List.range e.groups).foldl (fun u g =>
      (List.range nodes).foldl (fun u k => u.mapShelf c (x.draftEntry e row g (k + 1)) 0 true) u) s1

/-- Accepted nodes' draft shelves move into committed entries; the other draft entries are cleared (R319). -/
def State.acceptTree (s : State) (c : Nat) (e : Engine) (row pos : Nat) (accepted : List Nat) : State :=
  let x := s.ctx c
  (List.range e.groups).foldl (fun u g =>
    let u1 := (List.range accepted.length).foldl (fun u d =>
      let i := x.draftEntry e row g (accepted.getD d 1)
      let v := u.mapEntry c i
      if bitsOf v 24 24 = 1 then
        (u.setMapEntry c i 0).setMapEntry c (x.posEntry e row g (pos + d + 1)) (bitsOf v 23 0 + 2 ^ 24 + 2 ^ 32)
      else u) u
    (List.range 64).foldl (fun u k => u.clearEntry c (x.draftEntry e row g (k + 1))) u1) s

/-! ### Output records (R309, R310, R413) -/

/-- The hatch jobs of a request that have not been placed. -/
def State.recordJobs (s : State) (c id : Nat) (h : Option Nat) : Nat :=
  match h with
  | some h => ((s.hatch (c / 256) h).jobs.filter (fun j => j.kind == .record c id)).length
  | none => 0

/-- Whether a record of the request finds no slot in DEVICE ownership (R309): the slots that the hatch still writes before the request's
last record ends, those of a job that has begun and of the records up to it (R349), exceed those that stand in DEVICE ownership. -/
def State.recordWaits (s : State) (c id : Nat) (h : Option Nat) : Bool :=
  match h with
  | some h =>
    let x := s.hatch (c / 256) h
    if s.recordJobs c id (some h) = 0 then false
    else
      let isRec := fun (j : HatchJob) => match j.kind with | .record _ _ => true | _ => false
      let upTo := (x.jobs.reverse.dropWhile (fun j => j.kind != .record c id)).reverse.filter isRec
      let begun := (x.jobs.find? (fun j => !j.written.isEmpty)).toList.filter (fun j => !isRec j)
      let need := ((begun ++ upTo).map (fun j => j.slots (s.payloadBytes (c / 256) h) - j.written.length)).foldl (· + ·) 0
      decide (s.slotsReady (c / 256) h < need)
  | none => false

/-- The manifest digest of the adapter that a request is or was pinned to, or zeros (R405, R413). -/
def Req.digest (r : Req) : List Byte := (r.pinDig ++ List.replicate (64 - r.pinDig.length) 0).take 64

/-- An output record with the digest an audited context adds. -/
def Ctx.record (x : Ctx) (r : Req) (flags reason count step gen pos : Nat) (data : List Byte) : List Byte :=
  let body := leBytes 2 r.id ++ leBytes 1 flags ++ leBytes 1 reason ++ leBytes 4 count ++ leBytes 8 step ++ leBytes 4 gen ++
    leBytes 4 ((r.pin.map (·.2)).getD 0) ++ leBytes 4 pos ++ leBytes 4 0 ++ data
  if x.params.audited then
    body ++ sha512 ((x.plan.map (·.digest)).getD [] ++ (x.weights.map (·.digest)).getD [] ++ r.digest ++ r.auditIn ++
      leBytes 8 step ++ body)
  else body

/-- SHA-512 blocks of a record digest over a record of `n` bytes. -/
def digestBlocks (n : Nat) : Nat := (264 + n + 17 + 127) / 128

/-- Queue an output record of a request on its hatch, and count its digest (R309, R414). -/
def State.pushRecord (s : State) (c : Nat) (r : Req) (bytes : List Byte) (poison : List (Nat × Nat)) : State :=
  match r.hatch with
  | some h =>
    if r.stopped then s
    else
      let fn := c / 256
      let x := s.hatch fn h
      let s1 := s.setHatch fn h { x with jobs := x.jobs ++ [⟨.record c r.id, c, bytes, poison, []⟩] }
      if (s.ctx c).params.audited then
        (s1.bump fn 0xA0018 47).bumpAt fn 0xA0020 47 0 (digestBlocks (bytes.length - 64))
      else s1
  | none => s

/-! ### Retirement and completion (R308, R309, R312, R320) -/

/-- A retired request whose records are all placed completes (R309); frames that wait for it learn its status (R357). -/
def State.settleReq (s : State) (c id : Nat) : State :=
  match s.req c id with
  | some r =>
    if r.phase = .retired ∧ s.recordJobs c id r.hatch = 0 then
      let (st, v) := r.finish.getD (stOk, 0)
      let s1 := s.modCtx c (fun x => { x with reqs := mdel x.reqs id })
      let s2 := { s1 with host := { s1.host with streams := s1.host.streams.map (fun p =>
        (p.1, { p.2 with frames := p.2.frames.map (fun f =>
          if f.ctx = c ∧ f.after = some id ∧ f.status = none then { f with status := some st } else f) })) } }
      match r.desc with
      | some d => s2.complete d st v
      | none => s2
    else s
  | none => s

/-- Complete the REQ_FEEDs of a request that are pending, in their order. -/
def State.dropFeeds (s : State) (c : Nat) (r : Req) (st v : Nat) : State :=
  let x := s.ctx c
  let mine := x.deferred.filterMap (fun p => match p.2 with
    | .feed q f _ => if q = r.id then f.desc else none
    | .tree q t _ => if q = r.id then t.desc else none
    | .admission _ => none)
  let s1 := s.modCtx c (fun x => { x with deferred := x.deferred.filter (fun p => match p.2 with
    | .feed q _ _ => q != r.id | .tree q _ _ => q != r.id | .admission q => q != r.id) })
  let ds := r.curFeed.toList ++ r.feeds.filterMap (·.desc) ++ (r.inTree.bind (·.desc)).toList ++ (r.tree.bind (·.desc)).toList ++ mine
  ds.foldl (fun u d => if st = stCancelled then u.completeOpen d st else u.complete d st v) s1

/-- Free the RETAINED adapter slots that no live request is pinned to (R293). -/
def State.freeAdapters (s : State) (c : Nat) : State :=
  s.modCtx c (fun x =>
    let pinned := fun (i : Nat) => x.reqs.any (fun p => (p.2.pin.map (·.1)) == some i)
    let as := x.adapters.filter (fun p => p.2.phase != .retained || pinned p.1)
    { x with adapters := as, removed := x.removed.filter (fun id => as.any (fun p => p.2.id == id && p.2.phase == .retained)) })

/-- Whether a REQ_CANCEL still waits for a live request of the context. -/
def State.cancelOpen (s : State) (c : Nat) (d : DescRef) : Bool :=
  (s.ctx c).reqs.any (fun p => p.2.phase != .retired && p.2.cancels.any (fun q => q.1.order == d.order))

/-- REQ_CANCELs whose request retired at the effect point complete at the end mark of the effect step; `all` completes each
(R312, R320). -/
def State.endCancels (s : State) (c n : Nat) (all : Bool) : State :=
  let due := fun (p : DescRef × Nat) => all || decide (p.2 ≤ n)
  let s1 := ((s.ctx c).cancelEnds.filter due).foldl (fun (u : State) p => if u.cancelOpen c p.1 then u else u.complete p.1 stOk p.2) s
  s1.modCtx c (fun x => { x with cancelEnds := x.cancelEnds.filter (fun p => !due p) })

/-- A request retires: its row's entries are cleared, its pin is released (R290), its feeds and cancels complete, and it completes
once its records are placed (R308, R309, R320).  `step` is the step of the retirement. -/
def State.retire (s : State) (c id st v step : Nat) : State :=
  match s.req c id with
  | none => s
  | some r =>
    let s1 := match r.row with | some row => s.clearRow c row | none => s
    let s2 := s1.dropFeeds c r (if st = stOk then stCancelled else st) (if st = stOk then step else v)
    let s3 := s2.putReq c { r with phase := .retired, slot := none, row := none, reserved := 0, live := false, pin := none, feeds := [], curFeed := none, tree := none,
                                   inTree := none, cancels := [], finish := some (st, v), effect := some (r.effect.getD step) }
    let s4 := s3.settleReq c id
    let live := (s4.req c id).isSome
    let res := match r.effect with
      | some k => k
      | none => if live ∨ s.domainMode then step else 2 ^ 64 - 1
    r.cancels.foldl (fun u p => if u.cancelOpen c p.1 then u else u.complete p.1 stOk res) s4

/-! ### Adapters at a boundary (R290, R293) -/

/-- The slot that stops being current becomes RETAINED while live requests are pinned to it, else FREE. -/
def Ctx.demote (x : Ctx) (slot : Nat) : Ctx :=
  let a := mget {} x.adapters slot
  if x.reqs.any (fun p => (p.2.pin.map (·.1)) == some slot) then
    { x with adapters := mput x.adapters slot { a with phase := .retained } }
  else { x with adapters := mdel x.adapters slot }

/-- The CURRENT slot of an adapter ID. -/
def Ctx.currentSlot (x : Ctx) (id : Nat) : Option Nat :=
  (x.adapters.find? (fun p => p.2.id == id && p.2.phase == .current)).map (·.1)

/-- Make one verified generation current. -/
def State.makeCurrent (s : State) (c slot : Nat) (d : DescRef) : State :=
  let x := s.ctx c
  let a := mget {} x.adapters slot
  let x1 := match x.currentSlot a.id with | some old => x.demote old | none => x
  let s1 := s.setCtx c { x1 with adapters := mput x1.adapters slot { a with phase := .current, verified := none } }
  s1.complete d stOk (slot * 2 ^ 32 + a.gen)

/-- Every verified generation becomes current, and pending removals apply. -/
def State.adapterBoundary (s : State) (c : Nat) : State :=
  let s1 := (s.ctx c).adapters.foldl (fun (u : State) p => match p.2.verified with
    | some d => u.makeCurrent c p.1 d
    | none => u) s
  let rs := (s1.ctx c).removals
  rs.foldl (fun (u : State) p =>
    let x := u.ctx c
    let u1 := match x.currentSlot p.1 with
      | some slot => u.setCtx c { x.demote slot with removed := x.removed ++ [p.1] }
      | none => u
    (u1.freeAdapters c).complete p.2 stOk 0) (s1.modCtx c (fun x => { x with removals := [] }))

/-! ### Outputs of a committed step (R300, R308, R310, R319) -/

/-- The tokens of a step that are output and the reason that ends generation (R308): `pos` is the position of the first. -/
def Req.stopScan (r : Req) (pos gen : Nat) : List Nat → List Nat × Option Nat
  | [] => ([], none)
  | t :: ts =>
    if r.stops.contains t then ([t], some 1)
    else if r.maxNew ≠ 0 ∧ gen + 1 ≥ r.maxNew then ([t], some 2)
    else if pos ≥ r.maxPos then ([t], some 3)
    else
      let (k, e) := r.stopScan (pos + 1) (gen + 1) ts
      (t :: k, e)

/-- The draw record of a slot as it stands in the step area (R313): every token but the last was carried by an accepted node, and so was
the last where the next draw was EMPTY (R319). -/
def State.drawRecord (s : State) (c e slot : Nat) : DrawRec :=
  match (s.ctx c).plan with
  | none => {}
  | some p =>
    let bs := readBytes s.mem.cellar ((s.ctx c).base + p.drawAddr e slot) 128
    let n := min 17 (fieldAt bs 0 1)
    let f := fieldAt bs 1 1
    { tokens := (List.range n).map (fun i => fieldAt bs (24 + 4 * i) 4 % 2 ^ 20),
      accepted := (List.range (min 16 (if f % 2 = 1 then n else n - 1))).map (fun i => fieldAt bs (4 + i) 1),
      empty := f % 2 == 1, poisoned := f / 2 % 2 == 1 }

/-- A request record's root token (R312: the record's inner layout is the model's own). -/
def Req.rootAddr (r : Req) : Nat := r.recBase + 0x100

/-- Generation ends: an open request becomes IDLE, another one retires (R308); in domain mode one whose output stop point has passed
completes CANCELLED (R320). -/
def State.endGeneration (s : State) (c : Nat) (r : Req) (reason n : Nat) : State :=
  if r.open_ && !r.final then s.putReq c { r with phase := .idle, slot := none, live := false, root := none }
  else
    let s1 := s.putReq c r
    if r.stopped ∧ s.domainMode then s1.retire c r.id stCancelled n n
    else s1.retire c r.id stOk (r.generated + reason * 2 ^ 32) n

/-- The last step of the final pass, or a root step, is done with these tokens: records, stops, handover (R307 to R310). -/
def State.finishStep (s : State) (c : Nat) (r : Req) (e : Engine) (n gen first : Nat) (kept : List Nat) (reason : Option Nat)
    (feed : Bool) (faults : List SymFault) : State :=
  let x := s.ctx c
  let ends := (reason.isSome && (!r.open_ || r.final))
  let fl := (if ends then 1 else 0) + (if feed && kept.isEmpty then 2 else 0) + (if e.result then 4 else 0)
  let (data, poison, s0) := if e.result then s.hubRead c r.outBase r.outBytes faults
    else (kept.flatMap (fun t => leBytes 4 t), [], s)
  let cnt := if e.result then r.outBytes else kept.length
  let writes := e.result || e.sample || reason.isSome || feed
  let bytes := x.record r fl (reason.getD 0) cnt n gen (if e.result || kept.isEmpty then 0 else first) data
  let s1 := if writes then s0.pushRecord c r bytes (poison.map (fun p => (p.1 + 32, p.2 + 32))) else s0
  match reason with
  | some q => s1.endGeneration c r q n
  | none =>
    match e.handover with
    | some _ => (s1.putReq c { r with phase := .waiting, slot := none, live := false, order := x.seq }).modCtx c
        (fun y => { y with seq := y.seq + 1 })
    | none => s1.putReq c r

/-- The current input has been consumed: a feed completes, and the input is kept for a HANDOVER target that runs it again (R307, R312). -/
def State.consumeInput (s : State) (r : Req) : Req × State :=
  ({ r with
      feeding := false, curFeed := none, curFinal := false, passLen := 0, passDone := 0, again := false
      final := r.final || r.curFinal
      visit := if r.again then r.visit else r.visit ++ [⟨r.curAddr, r.curRec, r.passStart, r.passLen, r.feeding⟩] },
    match r.curFeed with
    | some d => s.completeOpen d stOk
    | none => s)

/-- Whether a pass that draws no end ends generation with DONE: the last engine's, where that has RESULT, or draws nothing to go on with
(R308). -/
def Engine.doneAfterPass (e : Engine) (input : Bool) : Bool := e.handover == none && (e.result || !e.sample || (input && !e.decode))

/-- The outputs of one LIVE slot of the step `n` that commits, on weight generation `gen` (R300 action 1); `faults` is what the
decoders find in the transfers of a result that is read. -/
def State.commitReq (s : State) (c n gen : Nat) (r0 : Req) (faults : List SymFault) : State :=
  let r := { r0 with nans := r0.nans + r0.draw.nans }
  match (s.ctx c).engine r.engine, r.slot, r.row with
  | some e, some slot, some row =>
    let inputStep := decide (r.passDone < r.passLen)
    let d := if e.sample && r.last then s.drawRecord c r.engine slot else {}
    if inputStep then
      let done := r.passDone + r.count
      let pos := max r.pos (r.passStart + done)
      let r1 := { r with passDone := done, pos := pos, firstStep := false }
      let whole := decide (done = r.passLen) && (e.decode || decide (r.iter + 1 ≥ r.iterations))
      if whole then
        let fed := r.feeding
        let (r2, s1) := s.consumeInput r1
        if r.last then
          let (kept, stop) := r2.stopScan pos r2.generated d.tokens
          let reason := match stop with
            | some q => some q
            | none => if d.empty then some 4
              else if e.doneAfterPass true then some 5 else none
          let r3 := { r2 with generated := r2.generated + kept.length, output := kept.reverse ++ r2.output, root := kept.getLast?, iter := 0 }
          let s2 := match kept.getLast? with | some t => s1.ctxWrite c r3.rootAddr (leBytes 4 t) | none => s1
          s2.finishStep c r3 e n gen pos kept reason (fed && e.decode && !e.sample) faults
        else if e.decode then s1.finishStep c { r2 with iter := 0 } { e with handover := none, result := false, sample := false }
          n gen pos [] none fed []
        else s1.putReq c { r2 with iter := 0 }
      else if e.decode && r.feeding then
        s.finishStep c r1 { e with handover := none, result := false, sample := false } n gen pos [] none true []
      else if done = r.passLen then s.putReq c { r1 with passDone := 0, iter := r.iter + 1 }
      else s.putReq c r1
    else
      let (kept, stop) := r.stopScan (r.pos + 1) r.generated d.tokens
      let reason := match stop with
        | some q => some q
        | none => if d.empty then some 4 else if e.doneAfterPass false then some 5 else none
      let walked := if stop.isNone && d.empty then kept.length + 1 else max 1 kept.length
      let acc := d.accepted.take (walked - 1)
      let s1 := match r.inTree with
        | some t => (s.acceptTree c e row r.pos acc).completeOpt t.desc stOk d.accepted.length
        | none => s
      let fin := r.final || ((r.inTree.map (·.final)).getD false)
      let r1 := { r with pos := r.pos + walked, generated := r.generated + kept.length,
                         output := kept.reverse ++ r.output, root := kept.getLast?, inTree := none, firstStep := false, final := fin }
      let s2 := match kept.getLast? with | some t => s1.ctxWrite c r1.rootAddr (leBytes 4 t) | none => s1
      s2.finishStep c r1 e n gen (r.pos + 1) kept reason false faults
  | _, _, _ => s

/-! ### Descriptors that apply at a boundary (R312, R413) -/

/-- Apply one deferred request descriptor. -/
def State.applyDeferred (s : State) (c : Nat) (d : Deferred) : State :=
  let aud := fun (r : Req) (kind : Nat) (bs : List Byte) =>
    if (s.ctx c).params.audited then sha512 (r.audit ++ leBytes 1 kind ++ bs) else r.audit
  match d with
  | .admission _ => s
  | .feed q f bs =>
    match s.req c q with
    | some r =>
      let seq := (s.ctx c).seq
      let r1 := { r with feeds := r.feeds ++ [f], audit := aud r (if f.data then 2 else 1) bs }
      let s1 := s.modCtx c (fun x => { x with seq := x.seq + 1 })
      if r.phase = .idle then s1.putReq c { r1 with phase := .queued, woken := true, order := seq, engine := r.first, firstStep := true }
      else s1.putReq c r1
    | none => s
  | .tree q t bs =>
    match s.req c q with
    | some r =>
      let s1 := match r.tree with | some old => s.completeOpt old.desc stOk 0xFFFFFFFF | none => s
      s1.putReq c { r with tree := some t, audit := aud r 3 bs }
    | none => s

/-- Apply every deferred descriptor that is due at the boundary before step `m`. -/
def State.applyDue (s : State) (c m : Nat) : State :=
  let due := (s.ctx c).deferred.filter (fun p => decide (p.1 ≤ m))
  due.foldl (fun u p => u.applyDeferred c p.2)
    (s.modCtx c (fun x => { x with deferred := x.deferred.filter (fun p => decide (m < p.1)) }))

/-! ### Admission (R300, R306, R307) -/

/-- Shelves a request reserves (R306). -/
def Ctx.reservation (x : Ctx) (e : Engine) (maxPos : Nat) (spec : Bool) : Nat :=
  e.groups * ((maxPos + x.params.shelfPos - 1) / x.params.shelfPos) + (if spec then 64 * e.groups else 0)

/-- The lowest free slot of an engine and the lowest free row. -/
def Ctx.freeSlot (x : Ctx) (e : Nat) : Option Nat :=
  match x.engine e with
  | some en => (List.range en.slots).find? (fun i => !x.reqs.any (fun p => p.2.slot == some i && p.2.engine == e))
  | none => none
def Ctx.freeRow (x : Ctx) : Option Nat :=
  (List.range (x.params.mapEntries / max 1 x.rowEntries)).find? (fun i => !x.reqs.any (fun p => p.2.row == some i))

/-- The request's next input: one that it is to run again, or its next feed. -/
def Req.nextInput (r : Req) (recBytes : Nat) : Req :=
  match r.rerun, r.feeds with
  | i :: is, _ => { r with curAddr := i.addr, curRec := i.rec_, passStart := i.start, passLen := i.len, passDone := 0, iter := 0,
                           feeding := i.fed, curFeed := none, curFinal := false, again := true, rerun := is }
  | [], f :: fs => { r with curAddr := f.dest, curRec := if f.data then recBytes else 4, passStart := r.pos, passLen := f.positions,
                            passDone := 0, iter := 0, feeding := true, curFeed := f.desc, curFinal := f.final, again := false, feeds := fs }
  | [], [] => r

/-- Admit one request to a slot of its engine if it can be (R306); one whose adapter has no current generation stays QUEUED (R293).  A
PREFILL engine that is a HANDOVER target runs again every input that the request has consumed since it entered its first engine (R307; log
entry 67). -/
def State.admitOne (s : State) (c : Nat) (r : Req) : State :=
  let x := s.ctx c
  match x.freeSlot r.engine, x.engine r.engine with
  | some slot, some e =>
    let pin := match r.pin, r.adapter with
      | some p, _ => some p
      | none, some id => (x.currentSlot id).map (fun i => (i, (mget {} x.adapters i).gen))
      | none, none => none
    if r.adapter.isSome ∧ pin.isNone then s
    else if r.phase = .waiting then
      s.putReq c (if e.decode then { r with phase := .active, slot := some slot, firstStep := true, passLen := 0, passDone := 0 }
        else { r with phase := .active, slot := some slot, firstStep := true, passLen := 0, passDone := 0, iter := 0, rerun := r.visit })
    else
      match r.row with
      | some _ => s.putReq c { r with phase := .active, slot := some slot, firstStep := true, iter := 0, visit := [], rerun := [] }
      | none =>
        let used := (x.reqs.map (fun p => p.2.reserved)).foldl (· + ·) 0
        let need := x.reservation e r.maxPos r.spec
        match x.freeRow with
        | some row =>
          if used + need ≤ x.params.shelfCount then
            s.putReq c { r with phase := .active, slot := some slot, row := some row, reserved := need, firstStep := true, iter := 0,
                                pin := pin, pinDig := ((pin.map (fun p => (mget {} x.adapters p.1).digest)).getD []) }
          else s
        | none => s
  | _, _ => s

/-- Admit requests in the three groups of R300, and move waiting ones to their handover engines first. -/
def State.admitAll (s : State) (c m : Nat) : State :=
  let held := (s.ctx c).deferred.filterMap (fun p => match p.2 with | .admission q => if m < p.1 then some q else none | _ => none)
  let run := fun (u : State) (p : Req → Bool) =>
    (byOrder ((u.ctx c).reqsBy p)).foldl (fun (w : State) r => match w.req c r.id with | some r' => w.admitOne c r' | none => w) u
  let s1 := (byOrder ((s.ctx c).reqsBy (fun r => r.phase == .waiting))).foldl (fun (u : State) r =>
    match (s.ctx c).engine r.engine with
    | some e => match e.handover with
      | some h => u.admitOne c { r with engine := h }
      | none => u
    | none => u) s
  let s2 := run s1 (fun r => r.phase == .queued && r.woken && !held.contains r.id)
  run s2 (fun r => r.phase == .queued && !r.woken && !held.contains r.id)

/-! ### The slot table, tree records and shelf map of the next step (R300 action 3, R303, R305, R318) -/

/-- The depth of a node of a tree, node 0 being the root; entry i − 1 describes node i. -/
def treeDepth (ns : List (Nat × Nat)) : Nat → Nat → Nat
  | 0, _ => 0
  | _, 0 => 0
  | f + 1, i => match ns[i - 1]? with | some (_, p) => 1 + treeDepth ns f p | none => 0

/-- Whether node j is node i or an ancestor of it. -/
def treeAncestor (ns : List (Nat × Nat)) : Nat → Nat → Nat → Bool
  | 0, i, j => i == j
  | f + 1, i, j => i == j || (i != 0 && (match ns[i - 1]? with | some (_, p) => treeAncestor ns f p j | none => false))

/-- The tree record (R318). -/
def treeRecord (root : Nat) (ns : List (Nat × Nat)) : List Byte :=
  let n := ns.length
  let pad := fun (bs : List Byte) (k : Nat) => bs ++ List.replicate (k - bs.length) 0
  let toks := leBytes 4 root ++ ns.flatMap (fun p => leBytes 4 p.1)
  let deps := (List.range (n + 1)).map (fun i => BitVec.ofNat 8 (treeDepth ns 64 i))
  let pars := (0 : Byte) :: ns.map (fun p => BitVec.ofNat 8 p.2)
  let mask := (List.range (n + 1)).flatMap (fun i =>
    leBytes 16 ((List.range (n + 1)).foldl (fun a j => if treeAncestor ns 64 i j then a + 2 ^ j else a) 0))
  pad (pad (pad (pad toks 0x200 ++ deps) 0x280 ++ pars) 0x400 ++ mask) 4096

/-- A 64-byte slot-table entry (R303). -/
def slotEntry (flags id row pos count input iter adapter nodes out : Nat) : List Byte :=
  leBytes 2 flags ++ leBytes 2 id ++ leBytes 4 row ++ leBytes 4 pos ++ leBytes 4 count ++ leBytes 8 input ++ leBytes 2 iter ++
  leBytes 2 adapter ++ leBytes 1 nodes ++ leBytes 3 0 ++ leBytes 8 out ++ leBytes 24 0

/-- Write the slot-table entry of one ACTIVE request for the next step, map what the step writes, and write its tree record.
A request whose record waits for a hatch slot is a dummy and does not advance (R309). -/
def State.planSlot (s : State) (c : Nat) (p : Plan) (r0 : Req) : State :=
  let x := s.ctx c
  match x.engine r0.engine, r0.slot, r0.row with
  | some e, some slot, some row =>
    if s.recordWaits c r0.id r0.hatch then s.putReq c { r0 with live := false }
    else
      let recB := (x.engine r0.first).map (·.inRec) |>.getD 0
      let r1 := if r0.passDone < r0.passLen then r0 else r0.nextInput recB
      let input := decide (r1.passDone < r1.passLen)
      let treeBad := match r1.tree with | some t => input || decide (t.basePos ≠ r1.pos) | none => false
      let useTree := e.decode && e.spec && r1.tree.isSome && !treeBad
      let s1 := match r1.tree with
        | some t => if treeBad && e.decode then s.completeOpt t.desc stOk 0xFFFFFFFF else s
        | none => s
      let tree := if useTree then r1.tree else none
      let nodes := (tree.map (fun t => t.nodes.length)).getD 0
      let count := if input then min e.slotTokens (r1.passLen - r1.passDone) else 1 + nodes
      let more := !r1.feeds.isEmpty || !r1.rerun.isEmpty
      let last := if input then decide (r1.passDone + count = r1.passLen) && (e.decode || decide (r1.iter + 1 ≥ r1.iterations)) && !more
        else true
      let pos := if input && !e.decode then r1.passStart + r1.passDone else r1.pos
      let addr := if input then r1.curAddr + r1.passDone * r1.curRec else r1.rootAddr
      let isFeed := input && (r1.feeding || e.decode)
      let flags := 1 + (if r1.firstStep then 2 else 0) + (if last then 4 else 0) + (if isFeed then 8 else 0) + (if useTree then 16 else 0)
      let r2 := { r1 with live := true, count := count, last := last, inTree := tree, draw := {}, auditIn := r1.audit,
                          tree := if useTree || (treeBad && e.decode) then none else r1.tree }
      let s2 := (s1.putReq c r2).mapStep c r2 e pos (if input then count else 1) nodes
      let ent := slotEntry flags r2.id row pos count addr r2.iter ((r2.pin.map (·.1)).getD 0xFFFF) nodes
        (if e.result then r2.outBase else 0)
      let s3 := s2.cellarWrite (x.base + p.slotAddr r2.engine slot) ent false
      match tree with
      | some t => s3.cellarWrite (x.base + p.treeAddr r2.engine slot) (treeRecord (r2.root.getD 0) t.nodes) false
      | none => s3
  | _, _, _ => s

/-- Every slot-table entry for the next step; in a void step every slot is a dummy (R287, R303). -/
def State.writeTables (s : State) (c : Nat) (void : Bool) : State :=
  let x := s.ctx c
  match x.plan with
  | none => s
  | some p =>
    let s1 := (List.range p.engines.length).foldl (fun (u : State) e =>
      (List.range ((p.engines[e]?).map (·.slots) |>.getD 0)).foldl (fun (u : State) i =>
        u.cellarWrite (x.base + p.slotAddr e i) (List.replicate 64 0) false) u) s
    let s2 := s1.modCtx c (fun y => { y with logits := [], reqs := y.reqs.map (fun q => (q.1, { q.2 with live := false })) })
    if void then s2
    else (byOrder ((s2.ctx c).reqsBy (fun r => r.phase == .active))).foldl (fun (u : State) r =>
      match u.req c r.id with
      | some r' => u.planSlot c p r'
      | none => u) s2

end Sys2Proof.Machine
end

