-- ==== Sys2Proof/Machine/CkptOps.lean ====
section
/-!
DEFINITION. What a checkpoint captures and how large it is (R405, R408).  The manual names the contents of the state record and
not its inner layout, which is the model's own (log entry 20).
-/
namespace Sys2Proof.Machine

def ReqPhase.code : ReqPhase → Nat
  | .queued => 0 | .active => 1 | .waiting => 2 | .idle => 3 | .cancelling => 4 | .retired => 5

def ReqPhase.ofCode : Nat → ReqPhase
  | 0 => .queued | 1 => .active | 2 => .waiting | 3 => .idle | 4 => .cancelling | _ => .retired

/-- An optional number, as one more than it. -/
def optCode : Option Nat → Nat
  | none => 0
  | some v => v + 1
def optOf (v : Nat) : Option Nat := if v = 0 then none else some (v - 1)

/-- The vocabulary of the sampling engine on a request's way from an engine on; 0 when there is none. -/
def Ctx.vocabFrom (x : Ctx) (e : Nat) : Nat → Nat
  | 0 => 0
  | n + 1 =>
    match x.engine e with
    | some en => if en.sample then en.vocab else match en.handover with | some h => x.vocabFrom h n | none => 0
    | none => 0

/-- Bytes of a request record (R312). -/
def Ctx.recordBytes (x : Ctx) (r : Req) : Nat := roundUp (8192 + (x.vocabFrom r.first 9 + 7) / 8) 4096

/-- One request of the request table: 4,352 bytes. -/
def reqBytes (digest : List Byte) (r : Req) : List Byte :=
  let bs := leBytes 2 r.id ++ leBytes 1 r.phase.code ++ leBytes 1 r.first ++ leBytes 1 r.engine ++
    leBytes 3 (optCode r.slot) ++ leBytes 4 (optCode r.row) ++ leBytes 4 r.reserved ++
    leBytes 1 (r.open_.toNat + 2 * r.approxP.toNat + 4 * r.spec.toNat + 8 * r.firstStep.toNat + 16 * r.feeding.toNat + 32 * r.final.toNat +
      64 * r.woken.toNat + 128 * r.curFinal.toNat) ++
    leBytes 2 (optCode r.adapter) ++ leBytes 1 (optCode r.hatch) ++ leBytes 4 r.order ++ leBytes 8 r.recBase ++ leBytes 8 r.inputBase ++
    leBytes 8 r.outBase ++ leBytes 8 r.outBytes ++ leBytes 4 r.inputPos ++ leBytes 4 r.maxPos ++ leBytes 4 r.maxNew ++ leBytes 2 r.iterations ++
    leBytes 4 r.pos ++ leBytes 8 r.curAddr ++ leBytes 4 r.curRec ++ leBytes 4 r.passStart ++ leBytes 4 r.passLen ++ leBytes 4 r.passDone ++
    leBytes 2 r.iter ++ leBytes 4 (optCode r.root) ++ leBytes 4 r.generated ++ leBytes 4 r.nans ++
    leBytes 1 ((if r.pin.isSome then 1 else 0) + 2 * r.again.toNat)
  let fixed := bs ++ List.replicate (128 - bs.length) 0
  fixed ++ digest ++ (r.audit ++ List.replicate 64 0).take 64 ++ (r.output.take 1024).flatMap (fun t => leBytes 4 t) ++
    List.replicate (4 * (1024 - min 1024 r.output.length)) 0

/-- The inputs of a request, 21 bytes each (R307). -/
def runBytes (l : List InputRun) : List Byte :=
  l.flatMap (fun i => leBytes 8 i.addr ++ leBytes 4 i.rec_ ++ leBytes 4 i.start ++ leBytes 4 i.len ++ leBytes 1 i.fed.toNat)

def runsOf (bs : List Byte) (n : Nat) : List InputRun :=
  (List.range n).map (fun i => let f := fun (o k : Nat) => fieldAt bs (21 * i + o) k
    ⟨f 0 8, f 8 4, f 12 4, f 16 4, f 20 1 == 1⟩)

/-- The feeds that a request has not consumed, 13 bytes each, and its pending tree: what was applied before the snapshot and a restored request
still consumes (R312, R317, R405, R411). -/
def feedBytes (l : List Feed) : List Byte :=
  l.flatMap (fun f => leBytes 8 f.dest ++ leBytes 4 f.positions ++ leBytes 1 (f.data.toNat + 2 * f.final.toNat))
def treeBytes (t : Option Tree) : List Byte :=
  match t with
  | none => []
  | some t => leBytes 4 t.basePos ++ leBytes 1 t.final.toNat ++ t.nodes.flatMap (fun n => leBytes 4 n.1 ++ leBytes 1 n.2)

def feedsOf (bs : List Byte) (n : Nat) : List Feed :=
  (List.range n).map (fun i => let f := fun (o k : Nat) => fieldAt bs (13 * i + o) k
    { desc := none, data := f 12 1 % 2 == 1, dest := f 0 8, positions := f 8 4, final := f 12 1 / 2 % 2 == 1 })
def treeOf (bs : List Byte) : Option Tree :=
  if bs.isEmpty then none
  else some { desc := none, basePos := fieldAt bs 0 4, final := fieldAt bs 4 1 == 1,
              nodes := (List.range ((bs.length - 5) / 5)).map (fun i => (fieldAt bs (5 + 5 * i) 4, fieldAt bs (9 + 5 * i) 1)) }

/-- The state record: seed, counter, the counts of requests, of CURRENT adapters, of listed ranges and of map entries, the pages that the
record takes, the ranges, the adapters' digests, and the request table, each entry followed by the request record, the inputs it has consumed
or is to run again, and the feeds and the tree that it has yet to consume.  A request that has retired and waits for its records is live, and
has an entry (R308).  `keep` says which requests have entries. -/
def State.stateRecord (s : State) (c : Nat) (areas : List (Nat × Nat)) (keep : Req → Bool) (pages : Nat) : List Byte :=
  let x := s.ctx c
  let rs := (x.reqs.map (·.2)).filter keep
  let cur := x.adapters.filter (fun p => p.2.phase == .current)
  leBytes 8 x.params.seed.toNat ++ leBytes 8 x.steps ++ leBytes 4 rs.length ++ leBytes 4 cur.length ++
    leBytes 4 areas.length ++ leBytes 4 x.params.mapEntries ++ leBytes 4 pages ++ List.replicate 28 0 ++
    areas.flatMap (fun a => leBytes 8 a.1 ++ leBytes 8 a.2) ++
    cur.flatMap (fun p => leBytes 2 p.2.id ++ List.replicate 62 0 ++ p.2.digest) ++
    rs.flatMap (fun r => reqBytes r.digest r ++ leBytes 4 (x.recordBytes r) ++
      leBytes 4 r.visit.length ++ leBytes 4 r.rerun.length ++ leBytes 4 r.feeds.length ++ leBytes 4 (treeBytes r.tree).length ++
      List.replicate 44 0 ++
      readBytes s.mem.cellar (x.base + r.recBase) (x.recordBytes r) ++ runBytes r.visit ++ runBytes r.rerun ++
      feedBytes r.feeds ++ treeBytes r.tree)

/-- The mapped shelves of a context, in ascending order. -/
def Ctx.mapped (x : Ctx) : List Nat := (x.shelves.filter (·.2)).map (·.1)

def pagesOf (n : Nat) : Nat := (n + 4095) / 4096

/-- Pages of the state record with every live request. -/
def State.recordPages (s : State) (c : Nat) (areas : List (Nat × Nat)) : Nat := pagesOf (s.stateRecord c areas (fun _ => true) 0).length

/-- Pages of the checkpoint: state record, shelf map, mapped shelves, listed ranges, each from a page boundary (R408). -/
def State.ckptPages (s : State) (c : Nat) (areas : List (Nat × Nat)) : Nat :=
  let x := s.ctx c
  s.recordPages c areas + pagesOf (8 * x.params.mapEntries) + 32 * x.mapped.length + (areas.map (fun a => a.2 / 4096)).foldl (· + ·) 0

/-- Bytes of the whole checkpoint: header, pages, tag table. -/
def ckptBytes (pages : Nat) : Nat := 4096 + 4096 * pages + 4096 * pagesOf (16 * pages)

/-- A page-padded byte string. -/
def padPage (bs : List Byte) : List Byte := bs ++ List.replicate (4096 * pagesOf bs.length - bs.length) 0

/-- The state record of a checkpoint as it stands, in the pages it has: of the requests live at the snapshot those that still live (R407). -/
def State.ckptRecord (s : State) (c : Nat) (k : Ckpt) : List Byte :=
  let bs := s.stateRecord c k.areas (fun r => k.live.contains (r.id, r.desc)) k.recPages
  (bs ++ List.replicate (4096 * k.recPages - bs.length) 0).take (4096 * k.recPages)

/-- Spans of address, length and the length they take up, placed one after the other: address, length and offset. -/
def placeSpans (off : Nat) : List (Nat × Nat × Nat) → List (Nat × Nat × Nat)
  | [] => []
  | e :: es => (e.1, e.2.1, off) :: placeSpans (off + e.2.2) es

/-- The spans of the extent that the snapshot captures after the state record, each with the offset at which it stands (R405, R408). -/
def State.ckptSpans (s : State) (c : Nat) (areas : List (Nat × Nat)) : List (Nat × Nat × Nat) :=
  let x := s.ctx c
  let map := 8 * x.params.mapEntries
  placeSpans 0 ([(x.params.mapBase, map, 4096 * pagesOf map)] ++ x.mapped.map (fun i => (x.params.shelfBase + 131072 * i, 131072, 131072)) ++
    areas.map (fun a => (a.1, a.2, a.2)))

/-- The device's reads of what the snapshot captures, under the decoder's findings: the spans of the image that carry the poison flag, and the
counts (R201, R202). -/
def State.ckptReads (s : State) (c : Nat) (areas : List (Nat × Nat)) (faults : List SymFault) : List (Nat × Nat) × State :=
  (s.ckptSpans c areas).foldl (fun (r : List (Nat × Nat) × State) e =>
    let (_, bad, w) := r.2.hubRead c e.1 e.2.1 faults
    (r.1 ++ bad.map (fun p => (e.2.2 + p.1, e.2.2 + p.2)), w)) ([], s)

/-- The reads of the request records that a checkpoint's state record takes: whether one carries the poison flag, and the counts. -/
def State.recordReads (s : State) (c : Nat) (k : Ckpt) (faults : List SymFault) : Bool × State :=
  ((s.ctx c).reqsBy (fun r => k.live.contains (r.id, r.desc))).foldl (fun (r : Bool × State) q =>
    let (_, bad, w) := r.2.hubRead c q.recBase ((s.ctx c).recordBytes q) faults
    (r.1 || !bad.isEmpty, w)) (false, s)

/-- What the snapshot captures after the state record (R405). -/
def State.ckptImage (s : State) (c : Nat) (areas : List (Nat × Nat)) : List Byte :=
  let x := s.ctx c
  padPage (readBytes s.mem.cellar (x.base + x.params.mapBase) (8 * x.params.mapEntries)) ++
    x.mapped.flatMap (fun i => readBytes s.mem.cellar (x.base + x.params.shelfBase + 131072 * i) 131072) ++
    areas.flatMap (fun a => readBytes s.mem.cellar (x.base + a.1) a.2)

/-- A checkpoint takes its state record, as it stands now, and notes whether poison came with it. -/
def State.ckptTable (s : State) (c : Nat) (k : Ckpt) (faults : List SymFault) : Ckpt × State :=
  let (bad, s1) := s.recordReads c k faults
  ({ k with record := s.ckptRecord c k, poison := k.poison || bad }, s1)

/-- The snapshot end mark: the sizes are checked, and the barrier of void steps starts (R406, R407). -/
def State.ckptBegin (s : State) (c n : Nat) : State :=
  match (s.ctx c).ckpt with
  | none => s
  | some k =>
    let pages := s.ckptPages c k.areas
    let stage := k.desc.opd 32 4
    if ckptBytes pages > k.desc.opd 37 3 * 2 ^ 20 ∨ (stage ≠ 0 ∧ pages * 4096 > stage * 2 ^ 20) then
      (s.modCtx c (fun x => { x with ckpt := none })).refuse k.desc rsGeometry
    else s.modCtx c (fun x => { x with ckpt := some { k with voids := some 0, snap := n } })

end Sys2Proof.Machine
end

