-- ==== Sys2Proof/Machine/LinkOps.lean ====
section
/-!
DEFINITION. What every command of the fabric uses: port states, routing, egress queues, tallies and fences, folds, broadcast and
fabric epochs (R228, R233 to R249, R253, R254, R263, R429).
-/
namespace Sys2Proof.Machine

/-! ### Ports (R4, R14, R228, R266) -/

def State.lport (s : State) (p : Nat) : LinkPort := mget {} s.link.ports p

def State.setLport (s : State) (p : Nat) (x : LinkPort) : State :=
  { s with link := { s.link with ports := mset {} s.link.ports p x } }

def State.modLport (s : State) (p : Nat) (f : LinkPort → LinkPort) : State := s.setLport p (f (s.lport p))

/-- The port's registers. -/
def pstat (p : Nat) : Nat := 0x40400 + 64 * p
def pnbr (p : Nat) : Nat := 0x40408 + 64 * p
def plat (p : Nat) : Nat := 0x40410 + 64 * p

/-- The state codes of R256. -/
def psDisabled : Nat := 0
def psDetect : Nat := 1
def psEqualise : Nat := 2
def psAlign : Nat := 3
def psCheck : Nat := 4
def psKeying : Nat := 5
def psMeasure : Nat := 6
def psActive : Nat := 7
def psFolded : Nat := 8
def psQuarantine : Nat := 9
def psDown : Nat := 10

/-- The reason codes of R257. -/
def rePairing : Nat := 0x01
def reIdentity : Nat := 0x02
def reSlice : Nat := 0x03
def reVersion : Nat := 0x04
def reNoNeighbour : Nat := 0x05
def reLanes : Nat := 0x06
def reLongPath : Nat := 0x07
def reKeying : Nat := 0x08
def reAuth : Nat := 0x09
def reNoSibling : Nat := 0x0A

def State.pstate (s : State) (p : Nat) : Nat := s.field 0 (pstat p) 3 0

def State.setPstate (s : State) (p st reason : Nat) : State :=
  ((s.setField 0 (pstat p) 3 0 st).setField 0 (pstat p) 11 4 reason).modLport p (fun x => { x with since := s.clk.tick })

/-- Present in the grade and enabled by the charter. -/
def State.portUsable (s : State) (p : Nat) : Bool := s.field 0 (pstat p) 16 16 == 1 && s.field 0 (pstat p) 17 17 == 1

/-- Failed lanes. -/
def State.failedLanes (s : State) (p : Nat) : Nat := 4 - ones (s.field 0 (pstat p) 15 12) 4

/-- The port die of a port: true for B. -/
def dieOfPort (p : Nat) : Nat :=
  if p < 18 then p / 3 % 2 else if p < 20 then 0 else if p < 22 then 1 else p - 22

def isStore (p : Nat) : Bool := decide (22 ≤ p)
/-- The partition that a store port is assigned to (R265). -/
def State.portOwner (s : State) (p : Nat) : Option Nat := if isStore p then mfind s.link.stores p else none
def isGlobal (p : Nat) : Bool := decide (18 ≤ p) && decide (p < 22)

/-- A port's own device ID. -/
def State.devId (s : State) : Nat := s.field 0 0x20 15 0

/-- The partition that a port serves: a store port's, and partition 0 for the others (R265). -/
def State.portPart (s : State) (p : Nat) : Nat := if isStore p then (mfind s.link.stores p).getD 0 else 0

/-- Whether the edge ports of a port's die serve a region: a partition of one die reaches only the port die of its own side, that of the
east from region column 4 on, and any other partition, like a domain, both (R23, R28; log entry 62). -/
def State.portServes (s : State) (p r : Nat) : Bool :=
  s.domainMode || dieOfPort p == r % 8 / 4 || s.partOfRegion (r / 8 * 8) == s.partOfRegion (r / 8 * 8 + 7)

/-- The rack of a device ID (R238). -/
def devRack (dev : Nat) : Nat := dev / 64 % 512

/-- The siblings of a port (R228): for a global port, the ports that a valid route entry of another rack lists with it (R239). -/
def State.siblings (s : State) (p : Nat) : List Nat :=
  let same := fun (q : Nat) => decide (q ≠ p) && s.field 0 (pstat q) 16 16 == 1
  if p < 18 then (List.range 18).filter (fun q => q / 3 == p / 3 && same q)
  else if p < 22 then
    (List.range 4).map (· + 18) |>.filter (fun q => same q &&
      (List.range 512).any (fun r => decide (r ≠ devRack s.devId) && s.field 0 (0x41000 + 8 * r) 4 4 == 1 &&
        s.field 0 (0x41000 + 8 * r) 3 0 / 2 ^ (p - 18) % 2 == 1 && s.field 0 (0x41000 + 8 * r) 3 0 / 2 ^ (q - 18) % 2 == 1))
  else [22, 23].filter same

/-- The functions that an event of a port concerns: a store port's partition, else every function (R440). -/
def State.portFns (s : State) (p : Nat) : List Nat :=
  if isStore p && !s.domainMode then (mfind s.link.stores p).toList else s.functions

/-- Set a LINK_STATUS bit. -/
def State.linkStatus (s : State) (bit : Nat) : State := s.status 0 0x40000 bit

/-- Count a discarded crate (R244, R245, R249). -/
def State.discOther (s : State) : State := s.bump 0 0x40020 47
def State.discUnbound (s : State) : State := s.bump 0 0x40018 47
def State.discEpoch (s : State) (n : Nat) : State :=
  if n = 0 then s else (s.bumpAt 0 0x40010 47 0 n).linkStatus 6

/-! ### Crates (R233, R234) -/

def Crate.dst (c : Crate) : Nat := bitsOf c.hdr.toNat 63 48
def Crate.region (c : Crate) : Nat := bitsOf c.hdr.toNat 47 42
def Crate.tileIn (c : Crate) : Nat := bitsOf c.hdr.toNat 41 36
def Crate.cls (c : Crate) : Nat := bitsOf c.hdr.toNat 35 34
def Crate.fence (c : Crate) : Bool := c.hdr.getLsbD 33
def Crate.poison (c : Crate) : Bool := c.hdr.getLsbD 32
def Crate.kind (c : Crate) : Nat := bitsOf c.hdr.toNat 31 27
def Crate.stream (c : Crate) : Nat := bitsOf c.hdr.toNat 26 16
def Crate.seq (c : Crate) : Nat := bitsOf c.hdr.toNat 15 0

def Crate.bytes (c : Crate) : List Byte := leBytes 8 c.hdr.toNat ++ (c.data ++ List.replicate (40 - c.data.length) 0).take 40
def Crate.ofBytes (bs : List Byte) : Crate := ⟨BitVec.ofNat 64 (fieldAt bs 0 8), (bs.drop 8).take 40⟩

/-- A crate of the device's own. -/
def mkCrate (dst region tile cls kind stream seq : Nat) (fence : Bool) (data : List Byte) : Crate :=
  ⟨BitVec.ofNat 64 (dst * 2 ^ 48 + region * 2 ^ 42 + tile * 2 ^ 36 + cls * 2 ^ 34 + (if fence then 2 ^ 33 else 0) + kind * 2 ^ 27 +
    stream * 2 ^ 16 + seq), data⟩

/-- The class a kind requires; none for a reserved kind (R234). -/
def kindClass : Nat → Option Nat
  | 0x00 => some 0 | 0x01 => some 0 | 0x02 => some 2 | 0x03 => some 2 | 0x04 => some 3 | 0x05 => some 3
  | 0x08 => some 1 | 0x09 => some 1 | 0x0A => some 1 | 0x0C => some 2 | 0x0D => some 2 | _ => none

def Crate.isBcast (c : Crate) : Bool := c.kind == 0x04 || c.kind == 0x05

/-- PLAN, DYN and STORE crates are counted in the tallies (R247). -/
def Crate.tallied (c : Crate) : Bool := [0x01, 0x02, 0x03, 0x0C, 0x0D].contains c.kind

/-! ### Routing (R240) -/

def mixOf (s d : Nat) : Nat := (s * 0x02F5 + d * 0x013B) % 2048

/-- The first ACTIVE port of a list, from the mixed index on. -/
def State.chooseFrom (s : State) (list : List Nat) (stream d : Nat) : Option Nat :=
  let k := list.length
  if k = 0 then none
  else
    let i := mixOf stream d % k
    ((List.range k).map (fun j => list.getD ((i + j) % k) 0)).find? (fun p => s.pstate p == psActive)

/-- Position of a device along a dimension 1 to 3 (X, Y, Z) (R238). -/
def devPos (dev dim : Nat) : Nat := dev / 4 ^ (dim - 1) % 4

/-- The present ports of a dimension and sign. -/
def State.dimPorts (s : State) (dim : Nat) (neg : Bool) : List Nat :=
  ((List.range 3).map (fun k => 6 * (dim - 1) + (if neg then 3 else 0) + k)).filter (fun p => s.field 0 (pstat p) 16 16 == 1)

inductive Route where
  | here
  | port (p : Nat)
  | none
  deriving DecidableEq, Repr

/-- The route of a crate that is not broadcast; `stores` are the store ports of the sending partition. -/
def State.routeOf (s : State) (c : Crate) (stores : List Nat) : Route :=
  let me := s.devId
  let pick := fun (o : Option Nat) => match o with | some p => Route.port p | Option.none => Route.none
  if c.dst = me then .here
  else if c.dst ≥ 2 ^ 15 then pick (s.chooseFrom stores c.stream 4)
  else if devRack c.dst ≠ devRack me then
    let e := s.reg 0 (0x41000 + 8 * devRack c.dst)
    if getBits e 4 4 = 0 ∨ getBits e 3 0 = 0 then .none
    else pick (s.chooseFrom ((List.range 4).filter (fun i => getBits e 3 0 / 2 ^ i % 2 == 1) |>.map (· + 18)) c.stream 0)
  else
    match [1, 2, 3].find? (fun d => devPos c.dst d != devPos me d) with
    | some d =>
      let delta := (devPos c.dst d + 4 - devPos me d) % 4
      let neg := if delta = 1 then false else if delta = 3 then true else c.stream % 2 == 1
      pick (s.chooseFrom (s.dimPorts d neg) c.stream d)
    | Option.none => .none

/-! ### Egress (R242, R244, R247) -/

/-- Crates a port's egress queue holds (R244). -/
def egressSize (p : Nat) : Nat := if isGlobal p then 56576 else 6656

def LinkPort.queued (x : LinkPort) : Nat := x.ctl.length + x.plan.length + x.dyn.length

/-- A crate is discarded and counted; an IDLE crate is never counted (R234). -/
def State.discCrate (s : State) (c : Crate) : State := if c.kind = 0 then s else s.discOther

/-- A port's egress queue is full: dynamic and broadcast crates from another port wait where they are (R243, R244). -/
def State.egressFull (s : State) (p : Nat) : Bool := decide (egressSize p ≤ (s.lport p).queued)

/-- Put a crate on a port's egress queue by its class.  A plan crate that finds the queue full of plan and control crates is lost (R244; log
entry 80); the others wait at the port (R243). -/
def State.enqueue (s : State) (p : Nat) (c : Crate) : State :=
  let x := s.lport p
  if c.cls = 0 ∧ egressSize p ≤ x.ctl.length + x.plan.length then s.discCrate c
  else if c.kind = 0x0A ∨ c.kind = 0x09 then s.setLport p { x with ctl := x.ctl ++ [c] }
  else if c.cls = 0 ∨ c.cls = 1 then s.setLport p { x with plan := x.plan ++ [c] }
  else s.setLport p { x with dyn := x.dyn ++ [c] }

/-- The tallies of a port die. -/
def State.sentTally (s : State) (die dev : Nat) : Nat := mget 0 s.link.sent (die * 65536 + dev)
def State.recvTally (s : State) (die dev : Nat) : Nat := mget 0 s.link.received (die * 65536 + dev)

/-- Hand a crate that this device sends to an egress port: PLAN, DYN and STORE crates count in the send tally, and an F crate is
preceded by its FENCE_TALLY, whose sum covers the F crate itself (R246, R247). -/
def State.handOver (s : State) (p : Nat) (c : Crate) : State :=
  let d := dieOfPort p
  let s1 := if c.tallied then
      { s with link := { s.link with sent := mset 0 s.link.sent (d * 65536 + c.dst) ((s.sentTally d c.dst + 1) % 2 ^ 32) } }
    else s
  let s2 :=
    if c.fence && !c.isBcast then
      let sum := (s1.sentTally 0 c.dst + s1.sentTally 1 c.dst) % 2 ^ 32
      let body := leBytes 4 sum ++ leBytes 2 c.stream ++ leBytes 2 c.seq ++ leBytes 2 s.devId
      let t := mkCrate c.dst 0 0 1 0x08 c.stream c.seq false body
      if c.kind = 0x09 then s1.modLport p (fun x => { x with ctl := x.ctl ++ [t] }) else s1.enqueue p t
    else s1
  s2.enqueue p c

/-- The store ports of a partition (R265); in domain mode both.  A partition of one die reaches only the one of its own side (R28; log
entry 62). -/
def State.storesOf (s : State) (part : Nat) : List Nat :=
  [22, 23].filter (fun p => s.domainMode || (mfind s.link.stores p == some part && (s.nparts != 8 || dieOfPort p == part % 2)))

/-- A crate is unroutable: discarded, counted and reported (R240). -/
def State.unroutable (s : State) (c : Crate) : State :=
  ((s.discCrate c).linkStatus 5).eventAll 0x0406 .device c.dst c.stream

/-! ### Broadcast (R263) -/

/-- Copies of broadcast crates have left their egress queues: the ingress credit of a crate returns with its last copy. -/
def State.copiesGone (s : State) (gone : List (Nat × Nat × Nat × Crate)) : State :=
  gone.foldl (fun (u : State) g =>
    let rest := u.link.copies.filter (fun x => x != g)
    let u1 := { u with link := { u.link with copies := rest } }
    if rest.any (fun x => x.1 == g.1) then u1 else u1.modLport g.2.1 (fun x => { x with owed := x.owed + 1 })) s

/-- One copy of a crate has left a port. -/
def State.copyLeft (s : State) (p : Nat) (c : Crate) : State :=
  match s.link.copies.find? (fun x => x.2.2.1 == p && x.2.2.2 == c) with
  | some g => s.copiesGone [g]
  | none => s

/-- The egress ports of a broadcast crate's group; none where the group is not valid. -/
def State.groupPorts (s : State) (c : Crate) : List Nat :=
  let e := s.reg 0 (0x42000 + 8 * (c.dst % 4096))
  if getBits e 25 25 = 1 then (List.range 24).filter (fun p => getBits e 23 0 / 2 ^ p % 2 == 1) else []

/-- Copies of a BCAST crate go to its group's egress ports; the answer says whether a local copy is due.  `src` is the ingress port of
a crate that enters the device, whose hop count goes up by 1; `waits` says that a local copy would wait for its header, and holds the
ingress credit as a copy on a queue does (R243). -/
def State.broadcast (s : State) (c : Crate) (src : Option Nat) (waits : Bool) : Bool × State :=
  let e := s.reg 0 (0x42000 + 8 * (c.dst % 4096))
  let hops := if src.isSome then c.region + 1 else 0
  if hops > 24 ∨ getBits e 25 25 = 0 then
    (false, match src with | some p => (s.discCrate c).modLport p (fun x => { x with owed := x.owed + 1 }) | none => s.discCrate c)
  else
    let c' : Crate := { c with hdr := putBits c.hdr 47 42 hops }
    let n := s.link.copyNo
    let out := s.groupPorts c
    let held := match src with
      | some i => out.map (fun p => (n, i, p, c')) ++
          (if getBits e 24 24 = 1 ∧ waits = true then [(n, i, 24, c)] else [])
      | none => []
    let s1 := out.foldl (fun (u : State) p => u.enqueue p c') s
    let s2 := { s1 with link := { s1.link with copies := s1.link.copies ++ held, copyNo := n + 1 } }
    (getBits e 24 24 == 1, match src with
      | some i => if held.isEmpty then s2.modLport i (fun x => { x with owed := x.owed + 1 }) else s2
      | none => s2)

/-! ### Link control messages (R237) -/

/-- Send a link message: its parts go to consecutive control positions. -/
def State.sendMessage (s : State) (p subtype parts : Nat) (body : List Byte) : State :=
  let x := s.lport p
  let n := mget 0 x.msgOut subtype
  let cs := (List.range parts).map (fun i =>
    mkCrate 0 0 0 1 0x0A 0 0 false (leBytes 1 subtype ++ leBytes 1 i ++ leBytes 1 parts ++ leBytes 1 (n % 256) ++
      ((body.drop (36 * i)).take 36 ++ List.replicate 36 0).take 36))
  s.setLport p { x with ctl := x.ctl ++ cs, msgOut := mset 0 x.msgOut subtype ((n + 1) % 256) }

/-! ### Faults of a port (R252 to R254) -/

/-- Crates in a port's replay buffer and queues, and those of a folded port that wait for their resend, are lost and counted (R254). -/
def State.dropPort (s : State) (p : Nat) : State :=
  let x := s.lport p
  let n := (x.replay.map (fun w => (w.crates.filter (fun c => c.kind != 0)).length)).foldl (· + ·) 0 +
    ((x.ctl ++ x.plan ++ x.dyn).filter (fun c => c.kind != 0)).length + x.stranded.length
  let s0 := s.copiesGone (s.link.copies.filter (fun g => g.2.2.1 == p))
  let s1 := if n = 0 then s0 else s0.bumpAt 0 0x40020 47 0 n
  let x := s1.lport p
  s1.setLport p { x with ctl := [], plan := [], dyn := [], replay := [], resend := [], stranded := [] }

/-- The observed neighbour's device ID. -/
def State.observed (s : State) (p : Nat) : Nat := s.field 0 (pnbr p) 15 0

/-- A port goes DOWN with a reason; LINK_DOWN is raised unless another event names the fault. -/
def State.portDown (s : State) (p reason : Nat) : State :=
  let s1 := (s.setPstate p psDown reason).dropPort p
  if reason = reAuth then ((s1.linkStatus 3).event (s.portFns p) 0x0404 (.port p) reason (s.observed p))
  else (s1.linkStatus 2).event (s.portFns p) 0x0403 (.port p) reason (s.observed p)

/-- A present, enabled sibling exists. -/
def State.hasSibling (s : State) (p : Nat) : Bool := (s.siblings p).any s.portUsable

/-- Crates that a fold moves to the siblings: all but IDLE and the LINK_CTL crates of the port's own; a fold-state message of another
port goes on. -/
def Crate.moves (c : Crate) : Bool := c.kind != 0 && (c.kind != 0x0A || c.data.headD 0 == 0x05)

/-- The crates of a port's codewords that are not acknowledged, with the SEQ of each, then those on its queues. -/
def LinkPort.unsent (x : LinkPort) : List (Nat × Crate) :=
  x.replay.flatMap (fun w => (w.crates.filter Crate.moves).map (fun c => (w.seq, c))) ++
    ((x.ctl ++ x.plan ++ x.dyn).filter Crate.moves).map (fun c => (x.txSeq, c))

/-- A port folds onto its siblings (R253): its receiver's expected SEQ goes to the neighbour on a sibling, and its own crates wait
for the neighbour's.  A codeword whose tag has not verified has not been received, and the expected SEQ is the first such one's. -/
def State.foldPort (s : State) (p : Nat) : State :=
  if !s.hasSibling p then s.portDown p reNoSibling
  else
    let s1 := ((s.setPstate p psFolded 0).linkStatus 1).event (s.portFns p) 0x0402 (.port p) 0 (s.observed p)
    let x := s1.lport p
    let next := (x.rxHeld.head?.map (·.seq)).getD x.rxNext
    let s2 := s1.setLport p { x with stranded := x.unsent, ctl := [], plan := [], dyn := [], replay := [],
                                     resend := [], rxHeld := [], rxNext := next, foldAt := none }
    match (s.siblings p).find? (fun q => s.pstate q == psActive) with
    | some q => s2.sendMessage q 0x05 1 (leBytes 1 p ++ [0] ++ leBytes 2 next)
    | none => s2

/-- A lane of a port has failed: two failed lanes take it DOWN, and one does where no sibling can carry its crates (R252, R254).
Folding is LINK_FOLD's. -/
def State.laneFail (s : State) (p lane : Nat) : State :=
  let ok := s.field 0 (pstat p) 15 12
  if lane ≥ 4 ∨ ok / 2 ^ lane % 2 = 0 then s
  else
    let s1 := (s.setField 0 (pstat p) 15 12 (ok - 2 ^ lane)).modLport p (fun x => { x with lostLock := x.lostLock.filter (fun q => q.1 != lane) })
    if s1.pstate p = psDown ∨ s1.pstate p = psDisabled then s1
    else if s1.failedLanes p ≥ 2 then s1.portDown p reLanes
    else if s1.pstate p = psActive ∧ s1.hasSibling p = false then s1.portDown p reNoSibling
    else s1

/-! ### Fabric epochs (R249) -/

def State.epoch (s : State) : Nat := s.field 0 0x40008 31 0

/-- A crate that an epoch change leaves alone: LINK_CTL and the STORE kinds. -/
def Crate.outlives (c : Crate) : Bool := c.kind == 0x0A || c.kind == 0x0C || c.kind == 0x0D

/-- Adopt a fabric epoch: old crates on egress queues, in hold buffers and in ingress buffers are discarded and counted, the credits of
the dynamic and broadcast crates that leave ingress buffers return (R243), and the tallies start at 0.  A STORE crate that is held keeps
its place, and the crates it was to follow are no longer awaited (log entry 59). -/
def State.adoptEpoch (s : State) (e : Nat) : State :=
  let keep := Crate.outlives
  let gone := fun (l : List Crate) => (l.filter (fun c => !keep c && c.kind != 0)).length
  let late := s.link.early.filter (fun x => !keep x.2)
  let n := (s.link.ports.map (fun q => gone q.2.ctl + gone q.2.plan + gone q.2.dyn + gone q.2.ingress +
      gone (q.2.stranded.map (·.2)))).foldl (· + ·) 0 + gone (s.link.held.map (·.crate)) + late.length + s.link.faultIn.length
  let s0 := s.copiesGone s.link.copies
  let owed := fun (q : Nat × LinkPort) => (q.2.ingress.filter (fun c => !keep c && decide (2 ≤ c.cls))).length +
    (late.filter (fun x => x.1 == q.1 && !x.2.isBcast)).length
  let ports := s0.link.ports.map (fun q =>
    (q.1, { q.2 with ctl := q.2.ctl.filter keep, plan := q.2.plan.filter keep, dyn := q.2.dyn.filter keep, owed := q.2.owed + owed q,
                     ingress := q.2.ingress.filter keep, stranded := q.2.stranded.filter (fun x => keep x.2) }))
  let held := (s.link.held.filter (fun h => keep h.crate)).map (fun h => { h with past := true })
  let s1 := { s0 with link := { s0.link with ports := ports, held := held, fences := [], copies := [], faultIn := [],
                                             early := s.link.early.filter (fun x => keep x.2), sent := [],
                                             received := [], nextEpoch := none,
                                             incoming := s.link.incoming.filter (fun i => decide (4096 ≤ i.stream)) } }
  (s1.discEpoch n).setField 0 0x40008 31 0 e

/-! ### Fault messages (R429) -/

/-- Send a fault message on every ACTIVE port but the store ports and the one named. -/
def State.sendFault (s : State) (cause origin id hops failStep : Nat) (except : Option Nat) : State :=
  let dom := (s.dom.map (·.id)).getD 0
  let body := [0x01#8] ++ leBytes 1 cause ++ leBytes 2 origin ++ leBytes 4 id ++ leBytes 3 dom ++ leBytes 1 hops ++
    leBytes 4 s.epoch ++ leBytes 8 failStep ++ leBytes 2 s.devId
  (List.range 22).foldl (fun (u : State) p =>
    if u.pstate p = psActive ∧ except ≠ some p then
      u.handOver p (mkCrate (u.observed p) 0 0 1 0x09 0 0 true body)
    else u) s

/-- The device waits in domain recovery (R428). -/
def State.inRecovery (s : State) : Bool := match s.dom with | some d => d.recovery | none => false

/-- The ports are quiesced from the entry into domain recovery until the new fabric epoch, which discards what waits (R428, R249). -/
def State.quiesced (s : State) : Bool :=
  match s.dom with
  | some d => d.recovery || (s.ctx d.ctx).step.starting.isSome
  | none => false

end Sys2Proof.Machine
end

