-- ==== Sys2Proof/Machine/Steps.lean ====
section
/-!
DEFINITION. Plans and steps: set-up, start and stop, the end mark, the commit with its boundary actions, replay, abandonment and
domain recovery (R57, R154, R197, R273, R287, R297 to R304, R420 to R433).
-/
namespace Sys2Proof.Machine

/-! ### Slots (R160) -/

def State.slotTicks (s : State) (u : Nat) : Nat := s.div * (s.unit u).beat
def frameTicks : Nat := 2621440
def State.slotsPerFrame (s : State) (u : Nat) : Nat := frameTicks / s.slotTicks u

/-- The tick of the slot boundary that comes next for a unit. -/
def State.nextBoundary (s : State) (u : Nat) : Nat := s.clk.frameStart + (s.unit u).nextSlot * s.slotTicks u

/-- The slip units: the partitions, or the device in domain mode (R173). -/
def State.units (s : State) : List Nat := s.functions

/-! ### Set-up of tiles (R154, R197, R304, R422) -/

/-- The context record (R304). -/
def Ctx.contextRecord (x : Ctx) (base : Nat) (p : Plan) : List Byte :=
  leBytes 8 base ++ leBytes 8 p.stepArea ++ leBytes 8 x.params.mapBase ++ leBytes 8 x.params.shelfBase ++ leBytes 4 x.params.shelfPos ++
  leBytes 4 x.params.shelfRec ++ leBytes 8 x.params.adapterBase ++ leBytes 4 x.params.adapterSlotBytes ++ leBytes 2 p.variant ++ leBytes 2 0 ++
  leBytes 8 x.params.seed.toNat ++ leBytes 4 (p.rowEntries x.params.shelfPos) ++ List.replicate 188 0

/-- A tile after its larder is scrubbed and its registers are reset: the accumulation store and the stationary registers keep their
contents, and so does the poison state, which a commit or the start of a replay clears (R55, R108, R154). -/
def Tile.cleared (t : Tile) : Tile :=
  { Tile.reset with acc := t.acc, shadow := t.shadow, active := t.active, poison := t.poison, cause := t.cause }

/-- The lines a tile's entry preloads (R149), as a partition's reads deliver them under the decoder's findings: the lines, whether poison came
with one, and the counts (R201, R202).  DESIGN CHOICE (log entry 74): where they reach past the tile's code, they hold the cellar bytes
that follow it. -/
def State.preload (s : State) (part code n : Nat) (faults : List SymFault) : Map Line × Bool × State :=
  (List.range n).foldl (fun (r : Map Line × Bool × State) i =>
    let (bs, bad, w) := r.2.2.decodeRead part (code + 2048 * i) 2048 faults
    let line : Line :=
      { valid := true, filling := false, tag := 64 * i,
        bundles := (List.range 64).foldl (fun m j => mset (0 : BitVec 256) m j (BitVec.ofNat 256 (fieldAt bs (32 * j) 32))) [] }
    (r.1 ++ [(i, line)], r.2.1 || bad, w)) ([], false, s)

/-- The set-up data in the plan area gives each tile its entry point, preload count, PIN, initialisation records and bindings (R151,
R154); the tiles and their code bases are those that PLAN_LOAD recorded. -/
def readSetups (bs : List Byte) (ts : List TileSetup) : List TileSetup :=
  let limit := bs.length / 8
  (ts.foldl (fun (r : Nat × Nat × List TileSetup) t =>
    let (i, cur, acc) := r
    let e := 64 * i
    let cnt := min limit (fieldAt bs (e + 0x14) 4)
    let nb := min limit (fieldAt bs (e + 0x30) 2)
    let lens := (List.range cnt).map (fun j => fieldAt bs (cur + 16 * j + 12) 4)
    let dataAt := fun (j : Nat) => cur + 16 * cnt + (lens.take j).foldl (· + ·) 0
    let inits := (List.range cnt).map (fun j => (fieldAt bs (cur + 16 * j + 8) 4, (bs.drop (dataAt j)).take (lens.getD j 0)))
    let ba := dataAt cnt
    (i + 1, ba + 8 * nb, acc ++ [{ t with preload := fieldAt bs (e + 2) 1, entry := fieldAt bs (e + 4) 4,
                                          pin := BitVec.ofNat 64 (fieldAt bs (e + 0x18) 8), inits := inits,
                                          binds := (List.range nb).map (fun j => BitVec.ofNat 64 (fieldAt bs (ba + 8 * j) 8)) }]))
    (0, 64 * ts.length, [])).2.2

/-- Set up one tile that has an entry; `bad` says that its set-up data carried poison, which with a poisoned preloaded line poisons the
tile (R202). -/
def State.setupTile (s : State) (x : Ctx) (p : Plan) (base : Nat) (bad : Bool) (faults : List SymFault) (t : TileSetup) : State :=
  let k := 64 * t.y + t.x
  let (lines, badLine, s) := s.preload (s.partOfRegion (regionOfTile k)) (x.base + t.codeBase) t.preload faults
  let poison := bad || badLine
  let lar := t.inits.foldl (fun m r => writeBytes m r.1 r.2) []
  let lar := writeBytes lar 0x2FFF00 (x.contextRecord base p)
  s.setTile k { (s.tile k).cleared with
    larder := lar
    bind := (List.range t.binds.length).foldl (fun m i => mset 0 m i (t.binds.getD i 0)) []
    pin := t.pin
    lines := lines
    code := some (t.codeBundles, t.codeBase)
    elreri := p.elreri
    pc := t.entry
    hold := .free
    poison := (s.tile k).poison || poison
    cause := (s.tile k).cause ||| (if poison then 0x40 else 0) }

/-- The regions bound to a context lose their bindings and their tiles are scrubbed and hold no program (R197, R273). -/
def State.unbindPlan (s : State) (c : Nat) : State :=
  ((List.range 64).filter (fun r => (s.region r).bound == some c)).foldl (fun (u : State) r =>
    (tilesOfRegion r).foldl (fun (w : State) k => w.setTile k (w.tile k).cleared)
      ((u.setRegion r { u.region r with bound := none, done := true, stretch := 0, symp := 0 }).clearLandings r)) s

/-- Set up every tile of the USED regions: bindings of an earlier set-up go first (R154, R422).  `faults` are the decoder findings of the
reads of the set-up data and the preloaded lines (R201). -/
def State.setupPlan (s : State) (c : Nat) (faults : List SymFault) : State :=
  let x := s.ctx c
  match x.plan with
  | none => s
  | some p =>
    let used := (List.range 64).filter (fun r => p.used.getLsbD r)
    let s1 := used.foldl (fun (u : State) r =>
      (tilesOfRegion r).foldl (fun (w : State) k => w.setTile k (w.tile k).cleared)
        ((u.setRegion r { u.region r with bound := some c }).clearLandings r))
      (s.unbindPlan c)
    let (bs, bad, s2) := s1.decodeRead (c / 256) (x.base + p.setupBase) p.setupBytes faults
    (readSetups bs p.tiles).foldl (fun u t => u.setupTile x p x.step.base bad faults t) s2

/-! ### Staging entries of a start or a replay (R223, R224, R422) -/

/-- The staging list of a weight set, read from its copy in the cellar under the decoder's findings, and the counts (R201, R202). -/
def State.stagingList (s : State) (c : Nat) (faults : List SymFault) : List StageFetch × State :=
  let x := s.ctx c
  match x.weights with
  | none => ([], s)
  | some w => (List.range w.listCount).foldl (fun (r : List StageFetch × State) i =>
      let (bs, bad, s1) := r.2.hubRead c (w.listBase + 32 * i) 32 faults
      let e : StageFetch :=
        { ctx := c, entry := i, vault := fieldAt bs 0 8, cellar := fieldAt bs 8 8, pages := fieldAt bs 16 4, due := fieldAt bs 20 4,
          lead := fieldAt bs 24 4, subst := fieldAt bs 28 1 % 2 == 1, step := x.step.base, started := false, passed := false, written := 0,
          poisoned := !bad.isEmpty, intact := true, refetched := false, abandoned := false, counted := false }
      (r.1 ++ [e], s1)) ([], s)

/-- An entry's fetch for the step after. -/
def StageFetch.next (e : StageFetch) : StageFetch :=
  { e with step := e.step + 1, started := false, passed := false, written := 0, data := [], intact := true, refetched := false, abandoned := false,
           counted := false }

/-- Every entry has a fetch that has not begun: the one of the step after the last that has (R224). -/
def stageRefill (l : List StageFetch) : List StageFetch :=
  l.flatMap (fun e =>
    if !e.started || l.any (fun o => o.ctx == e.ctx && o.entry == e.entry && decide (e.step < o.step)) then [e] else [e, e.next])

/-- Set the staging entries of a context for a start or a replay: an entry whose destination was completely written for the step, and
has not been overwritten since, counts as present (R422). -/
def State.resetStaging (s : State) (c : Nat) (keep : Bool) (faults : List SymFault) : State :=
  let old := s.mem.staging.filter (fun e => e.ctx == c)
  let (list, s) := s.stagingList c faults
  let fresh := list.map (fun e =>
    match old.find? (fun o => o.entry == e.entry && o.written == o.pages && o.intact && o.step == e.step) with
    | some o => if keep then { o with counted := false, passed := false } else e
    | none => e)
  { s with mem := { s.mem with staging := s.mem.staging.filter (fun e => e.ctx != c) ++ stageRefill fresh } }

/-! ### Plan stop (R197, R273) -/

/-- The new generation of a swap whose shards stand in their places becomes current, and the swap completes (R287). -/
def State.swapFinish (s : State) (c : Nat) (w : Swap) : State :=
  (s.modCtx c (fun x => { x with
    swap := none
    lastGen := w.gen
    weights := match w.next with | some g => some { g.set with gen := w.gen } | none => x.weights })).complete w.desc stOk w.gen

/-- What a plan's stop brings about at once, since the context no longer runs: a commit that has been copied completes, slots that no live
request is pinned to are freed, verified adapter generations become current and removals apply (R287, R292, R293). -/
def State.settleStop (s : State) (c : Nat) : State :=
  let x := s.ctx c
  if x.destroying.isSome then s
  else
    let s1 := match x.swap with
      | some w => if w.copied then s.swapFinish c w else s
      | none => s
    (s1.freeAdapters c).adapterBoundary c

/-- The slot tables, tree records and shelf map as they stand in the cellar (R431). -/
def State.stepTables (s : State) (c : Nat) : Memory :=
  let x := s.ctx c
  match x.plan with
  | none => []
  | some p =>
    let es := (List.range p.engines.length)
    let spans := es.flatMap (fun e => match p.engines[e]? with
      | some en => [(x.base + p.slotAddr e 0, en.tableBytes)] ++ (if en.spec then [(x.base + p.treeAddr e 0, 4096 * en.slots)] else [])
      | none => []) ++ [(x.base + x.params.mapBase, 8 * x.params.mapEntries)]
    s.mem.cellar.filter (fun b => spans.any (fun q => decide (q.1 ≤ b.1) && decide (b.1 < q.1 + q.2)))

/-- Put tables back: the spans are cleared and the bytes kept are stored. -/
def State.putTables (s : State) (c : Nat) (m : Memory) : State :=
  let old := s.stepTables c
  let cel := old.foldl (fun a b => writeByte a b.1 0) s.mem.cellar
  { s with mem := { s.mem with cellar := m.foldl (fun a b => writeByte a b.1 b.2) cel } }

/-- The tables that the last commit left go back to their place, where a repeat step has not reached its end mark (R433). -/
def State.unroll (s : State) (c : Nat) : State :=
  if (s.ctx c).rolled then (s.putTables c (s.ctx c).after).modCtx c (fun x => { x with rolled := false }) else s

/-- A plan stops: the bindings are cleared, its larders scrubbed, its tiles hold no program; the unit comes to rest when nothing
else runs in it. -/
def State.stopPlan (s : State) (c : Nat) : State :=
  let s := s.unroll c
  let x := s.ctx c
  let s1 := s.unbindPlan c
  let s2 := s1.setCtx c { x with phase := if x.destroying.isSome then .destroying else if x.weights.isSome && x.plan.isSome then .ready else .empty,
                                 step := {}, stopAt := none, logits := [],
                                 reqs := x.reqs.map (fun p => (p.1, { p.2 with live := false })) }
  let s3 := { s2 with mem := { s2.mem with staging := s2.mem.staging.filter (fun e => e.ctx != c) } }.endCancels c 0 true |>.settleStop c
  let u := c / 256
  if (s3.running u).isEmpty then
    let y := s3.unit u
    s3.setUnit u { y with debt := 0, inBeat := false, breaks := [], stopAsked := false, stopped := false }
  else s3

/-! ### Domain recovery (R427 to R429, R434) -/

/-- The whole record of a recovery's entry: EVT_DOMAIN, EVT_LAST_COMMIT, EVT_FAIL_STEP, the status bit, the event and the count. -/
def State.reportRecovery (s : State) (c fail cause origin : Nat) : State :=
  let s1 := ((s.setField 0 0x60028 0 0 1).setField 0 0x60028 8 1 cause).setField 0 0x60028 24 9 origin
  let s2 := (s1.setReg 0 0x60030 (BitVec.ofNat 64 (s.ctx c).lastCommit)).setReg 0 0x60038 (BitVec.ofNat 64 fail)
  ((s2.status 0 0x60000 1).bump 0 0x80018 31).eventAll 0x0501 .device fail (cause + origin * 256)

/-- Enter domain recovery with a fault of this device's own or one received: quiesce, report, complete what R434 names.  The
answer leaves the fault message to the caller. -/
def State.enterRecovery (s : State) (fail cause origin : Nat) : State :=
  match s.dom with
  | none => s
  | some d =>
    if d.recovery then s
    else
      let x := s.ctx d.ctx
      let s1 := { s with dom := some { d with recovery := true } }
      let s2 := s1.reportRecovery d.ctx fail cause origin
      let s3 := match x.ckpt with
        | some k => (s2.modCtx d.ctx (fun x => { x with ckpt := none })).completeOpen k.desc stDomainFault
        | none => s2
      match x.step.desc with
      | some q =>
        let s4 := s3.modStep d.ctx (fun t => { t with desc := none, starting := none, repeat_ := false })
        { s4 with link := { s4.link with nextEpoch := none } }.completeOpen q stDomainFault
      | none => s3

/-- A new fault message counts in EVT_DOMAIN.FAULTS; one that brings a recovery is the first of it (R441; log entry 81). -/
def State.countFault (s : State) : State :=
  let n := if s.inRecovery || s.faults.told.isSome then s.field 0 0x60028 47 32 else 0
  s.setField 0 0x60028 47 32 (min (n + 1) 65535)

/-- A fault that this device finds: it enters recovery and sends its fault message; where no message has brought the recovery, EVT_DOMAIN
counts from 0 (R428, R429, R441). -/
def State.ownFault (s : State) (fail cause : Nat) : State :=
  if s.inRecovery || s.dom.isNone then s
  else
    let n := s.faults.originated
    let s1 := { s with faults := { s.faults with originated := n + 1, seen := ((s.devId, n) :: s.faults.seen).take 64 } }
    let s2 := if s.faults.told.isNone then s1.setField 0 0x60028 47 32 0 else s1
    (s2.enterRecovery fail cause s.devId).sendFault cause s.devId n 0 fail none

/-! ### Fences (R58, R420, R425) -/

/-- Fence the tile's region and start the array row test on the tile; a further tile of a fenced region is tested too (R58). -/
def State.fenceRegion (s : State) (k : Nat) : State :=
  let r := regionOfTile k
  let tests := if s.faults.rowTests.contains k then s.faults.rowTests else s.faults.rowTests ++ [k]
  let s1 := { s with faults := { s.faults with rowTests := tests } }
  if (s.region r).fenced then s1
  else (s1.setRegion r { s.region r with fenced := true }).status (s.unitOf r) 0x60000 2

/-- The fenced regions as a mask. -/
def State.fencedMask (s : State) : BitVec 64 :=
  (List.range 64).foldl (fun m r => if (s.region r).fenced then m ||| BitVec.ofNat 64 (2 ^ r) else m) 0

/-- Whether a context's variant uses a fenced region. -/
def State.usesFenced (s : State) (c : Nat) : Bool :=
  match (s.ctx c).plan with
  | some p => p.used &&& s.fencedMask != 0
  | none => false

/-! ### Abandonment (R424, R437) -/

/-- Abandon a step: the plan stops, its requests complete with a status, and the event is raised with a cause. -/
def State.abandonAs (s : State) (c n st cause : Nat) : State :=
  let last := (s.ctx c).lastCommit
  let s1 := (s.bump (c / 256) 0x80010 31).event [c / 256] 0x0104 .device n cause
  let ids := (s1.ctx c).reqs.map (·.1)
  let s2 := ids.foldl (fun (u : State) id =>
    match u.req c id with
    | some r =>
      if r.phase = .retired then u
      else if r.stopped then u.retire c id stCancelled (r.effect.getD n) n
      else u.retire c id st last n
    | none => u) s1
  s2.stopPlan c

/-- Abandon a step for the cause of its failed attempt. -/
def State.abandonStep (s : State) (c n cause : Nat) : State :=
  s.abandonAs c n (if cause = 3 then stVaultLate else stTimingBreak) cause

/-! ### The end mark (R297, R298, R313, R316, R437) -/

/-- Whether a draw record of the step in progress is incomplete: its sampling unit has not ended the draws of a live slot. -/
def State.drawsMissing (s : State) (c : Nat) : Bool :=
  let x := s.ctx c
  x.reqs.any (fun p =>
    let r := p.2
    r.live && r.last && r.phase == .active && !r.draw.ended &&
      (match x.engine r.engine with | some e => e.sample | none => false) &&
      (!s.domainMode || x.logits.any (fun q => q.1 / 65 == r.engine * 4096 + r.slot.getD 0) || !r.draw.tokens.isEmpty))

/-- The end mark of a running plan: the step counter counts, and the step's commit becomes due.  A counter that reaches 2^63 abandons
the step instead, with a cause that the manual does not state (R437, log entry 53). -/
def State.endMarkAt (s : State) (c tick : Nat) : State :=
  let s0 := if s.drawsMissing c then s.raiseBreak (c / 256) .timingBreak else s
  let beat := s0.planBeat c
  let n := (s0.ctx c).steps
  let s1 := s0.modCtx c (fun x => { x with
    steps := x.steps + 1
    step := { x.step with endDue := some x.step.failed, failed := none, endBeat := beat, endTick := tick } })
  if n + 1 < 2 ^ 63 then s1
  else
    s1.abandonAs c n stTimingBreak (Config.unstated 8 n % 8)

/-- The end mark at the end of the beat that ends now. -/
def State.endMark (s : State) (c : Nat) : State := s.endMarkAt c s.clk.tick

/-! ### The steward's scan (R57, R420, R421) -/

/-- The tiles of a context's regions. -/
def State.tilesOf (s : State) (c : Nat) : List Nat :=
  match (s.ctx c).plan with
  | some p => ((List.range 64).filter (fun r => p.used.getLsbD r)).flatMap tilesOfRegion
  | none => []

/-- Count a tile's checksum mismatch of the attempt; the third in 600 s fences its region. -/
def State.chargeMismatch (s : State) (k : Nat) : State :=
  let r := regionOfTile k
  let s1 := s.bump (s.unitOf r) (0x81000 + 32 * r) 31
  let h := inWindow s.clk.tick (600 * ticksPerSecond) (mget [] s1.faults.mismatches k)
  let lasting := decide (h.length ≥ 3)
  let s2 := { s1 with faults := { s1.faults with mismatches := mset [] s1.faults.mismatches k (if lasting then [] else h) } }
  if lasting then s2.fenceRegion k else s2

/-- Sixteen corrected accumulation-store errors of a tile in 24 h act as a lasting mismatch, and so does a tile fault: a fifth retirement
in a larder bank (R72, R420). -/
def State.chargeAcc (s : State) (k : Nat) : State :=
  if (mget [] s.faults.accErrs k).length ≥ 16 then
    ({ s with faults := { s.faults with accErrs := mset [] s.faults.accErrs k [] } }).fenceRegion k
  else if s.faults.tileFaults.contains k then
    ({ s with faults := { s.faults with tileFaults := s.faults.tileFaults.filter (· != k) } }).fenceRegion k
  else s

/-- Read the poison states and cause masks: the tiles found poisoned. -/
def State.poisonScan (s : State) (c : Nat) : List Nat × State :=
  let ks := s.tilesOf c
  let bad := ks.filter (fun k => (s.tile k).poison)
  let s1 := ks.foldl (fun (u : State) k =>
    let u1 := if (u.tile k).poison && (u.tile k).cause.getLsbD 0 then u.chargeMismatch k else u
    u1.chargeAcc k) s
  (bad, { s1 with faults := { s1.faults with mismatchedNow := s1.faults.mismatchedNow.filter (fun k => !ks.contains k) } })

/-- The stewards report the poisoned tiles' regions: a STEP_POISONED record for each, with the count of its tiles (R57, R440; log entry 73). -/
def State.tellPoisoned (s : State) (c n : Nat) (bad : List Nat) : State :=
  (nub (bad.map regionOfTile)).foldl (fun (u : State) r =>
    u.event [c / 256] 0x0102 (.region r) n (bad.filter (fun k => regionOfTile k == r)).length) s

/-! ### Boundary actions (R287, R290, R300, R302, R407) -/

/-- The weight swap at the boundary before step `m`: whether that step is void. -/
def State.swapBoundary (s : State) (c m : Nat) : Bool × State :=
  let x := s.ctx c
  match x.swap with
  | none => (false, s)
  | some w =>
    match w.voids with
    | none =>
      let ready := w.next.isSome
      if (w.barrierStep = 0 ∧ ready = true) ∨ (w.barrierStep ≠ 0 ∧ w.barrierStep ≤ m) then
        (true, s.setCtx c { x with swap := some { w with voids := some 0 } })
      else (false, s)
    | some v =>
      if w.copied ∧ v + 1 ≥ w.voidSteps then
        (false, s.swapFinish c w)
      else
        let s1 := s.setCtx c { x with swap := some { w with voids := some (v + 1) } }
        (true, if s.domainMode ∧ w.voidSteps ≠ 0 ∧ v + 1 = w.voidSteps ∧ w.copied = false then s1.raiseBreak (c / 256) .timingBreak else s1)

/-- The checkpoint at the boundary after step `n`: whether the next step is void.  `faults` are the decoder findings of the reads of the
request records, which are captured at the resume step (R201). -/
def State.ckptBoundary (s : State) (c n : Nat) (faults : List SymFault) : Bool × State :=
  match (s.ctx c).ckpt with
  | none => (false, s)
  | some k =>
    match k.voids with
    | none =>
      if k.step.getD n ≤ n then
        let s1 := s.ckptBegin c n
        ((s1.ctx c).ckpt.isSome, s1)
      else (false, s)
    | some v =>
      if k.resume ≠ 0 then (false, s)
      else if k.released ∧ v + 1 ≥ k.voidSteps then
        let (k1, s1) := s.ckptTable c { k with resume := n + 1, voids := some (v + 1) } faults
        (false, s1.modCtx c (fun x => { x with ckpt := some k1 }))
      else
        let s1 := s.modCtx c (fun x => { x with ckpt := some { k with voids := some (v + 1) } })
        (true, if s.domainMode ∧ k.voidSteps ≠ 0 ∧ v + 1 = k.voidSteps ∧ k.released = false then s1.raiseBreak (c / 256) .timingBreak else s1)

/-- Requests that a feed wakes from IDLE at a boundary. -/
def State.wakeIdle (s : State) (c : Nat) : State :=
  ((s.ctx c).reqsBy (fun r => r.phase == .idle && !r.feeds.isEmpty)).foldl (fun (u : State) r =>
    (u.putReq c { r with phase := .queued, woken := true, order := (u.ctx c).seq, engine := r.first, firstStep := true }).modCtx c
      (fun x => { x with seq := x.seq + 1 })) s

/-- The step record of a step that commits (R302). -/
def State.writeStepRecord (s : State) (c n gen live : Nat) : State :=
  let x := s.ctx c
  match x.plan with
  | none => s
  | some p =>
    let t := x.step
    let fl := 1 + (if t.void_ then 2 else 0) + (if t.attempts > 0 then 4 else 0) + (if t.subst.contains n then 8 else 0)
    s.cellarWrite (x.base + p.stepArea + 32 * (n % 4096))
      (leBytes 8 n ++ leBytes 4 gen ++ leBytes 2 fl ++ leBytes 2 live ++ leBytes 8 t.endTick ++ leBytes 8 t.endBeat) false

/-- The boundary actions of a step that commits, in the order of R300 and R290. -/
def State.boundaryActions (s : State) (c n : Nat) (faults : List SymFault) : State :=
  let x := s.ctx c
  let void := x.step.void_
  let gen := if void then 0 else (x.weights.map (·.gen)).getD 0
  let live := (x.reqsBy (·.live)).length
  let before := s.stepTables c
  let outs := byPlace (x.reqsBy (fun r => r.live && r.phase == .active))
  let s1 := outs.foldl (fun (u : State) r => match u.req c r.id with | some r' => u.commitReq c n gen r' faults | none => u) s
  let s2 := ((s1.ctx c).reqsBy (fun r => match r.effect with | some k => decide (k ≤ n) && r.phase != .retired | none => false)).foldl
    (fun (u : State) r => u.retire c r.id stCancelled (r.effect.getD n) n) s1
  let s3 := ((s2.endCancels c n false).freeAdapters c).adapterBoundary c
  let (v1, s4) := s3.swapBoundary c (n + 1)
  let (v2, s5) := if v1 then (false, s4) else s4.ckptBoundary c n faults
  let stops := x.stopAt == some n
  let next := v1 || v2
  let s6 := ((s5.applyDue c (n + 1)).wakeIdle c)
  let s7 := if next || stops then s6 else s6.admitAll c (n + 1)
  let s8 := (s7.writeTables c (next || stops)).writeStepRecord c n gen live
  s8.modCtx c (fun y => { y with
    lastCommit := n
    retained := if s.domainMode then before else []
    step := { y.step with void_ := next, attempts := 0, subst := y.step.subst.filter (fun k => decide (n < k)) } })

/-- In domain mode a resumed step is void only while a barrier lasts: a swap whose commit has completed after its void steps ends here, and a
checkpoint ended with the recovery (R287, R407, R434; log entry 25). -/
def State.voidAgain (s : State) (c : Nat) : State :=
  let x := s.ctx c
  let go := fun (w : State) =>
    (((w.modStep c (fun t => { t with void_ := false })).wakeIdle c).admitAll c x.steps).writeTables c false
  if s.domainMode && x.step.void_ then
    match x.swap with
    | some w => match w.voids with
      | some v => if w.copied && decide (w.voidSteps ≤ v) then go (s.swapFinish c w) else s
      | none => go s
    | none => go s
  else s

/-- Every request that has not retired completes with a status, whose result value is not stated (log entry 36). -/
def State.retireAll (s : State) (c st n : Nat) : State :=
  ((s.ctx c).reqs.map (·.1)).foldl (fun (u : State) id =>
    match u.req c id with
    | some r => if r.phase = .retired then u else u.retire c id st (((r.desc.map (fun d => d.open_ st)).getD 0) % 2 ^ 64) n
    | none => u) s

/-- A plan that stops for a failed direct swap completes its requests with the swap's status (R289). -/
def State.stopWith (s : State) (c n : Nat) : State :=
  match (s.ctx c).step.stopNow with
  | some st => s.retireAll c st n
  | none => s

/-- The plan stops after a step's end mark, as a destroy, a DOMAIN_STOP or a failed direct swap asks (R275, R289, R345). -/
def State.stopAtEnd (s : State) (c n : Nat) : State :=
  if (s.ctx c).stopAt = some n then
    let kept := if s.dom.isSome then (s.ctx c).stopAt else none
    ((s.stopWith c n).stopPlan c).modCtx c (fun x => { x with stopAt := kept })
  else s

/-- Clear the poison of a context's tiles (R55). -/
def State.clearPoison (s : State) (c : Nat) : State :=
  (s.tilesOf c).foldl (fun (u : State) k => if (u.tile k).poison then u.setTile k { u.tile k with poison := false, cause := 0 } else u) s

/-- The reads of the step's draw records, under the decoder's findings: whether one is flagged poisoned, since a hub engine received poisoned
input for it, or is read with the poison flag, and the counts.  The step then cannot commit (R57, R201, R299, R313). -/
def State.drawReads (s : State) (c : Nat) (faults : List SymFault) : Bool × State :=
  let x := s.ctx c
  let due := x.reqsBy (fun r =>
    r.live && r.last && r.phase == .active && (match x.engine r.engine with | some e => e.sample | none => false))
  due.foldl (fun (a : Bool × State) r =>
    let at_ := x.base + ((x.plan.map (fun p => p.drawAddr r.engine (r.slot.getD 0))).getD 0)
    let (_, bad, w) := a.2.decodeRead (c / 256) at_ 128 faults
    (a.1 || bad || (s.drawRecord c r.engine (r.slot.getD 0)).poisoned, w)) (false, s)

/-- In domain mode a fence of a region that the variant uses ends the plan in domain recovery, after a repeat step as after any other (R427). -/
def State.fenceStop (s : State) (c : Nat) : State :=
  if s.domainMode ∧ s.usesFenced c then s.setUnit (c / 256) { s.unit (c / 256) with stopAsked := true } else s

/-- The commit of the step whose end mark has passed, or its failure (R299, R300, R422, R433). -/
def State.stepCommit (s : State) (c : Nat) (faults : List SymFault) : State :=
  match (s.ctx c).step.endDue with
  | none => s
  | some cause =>
    let n := (s.ctx c).steps - 1
    let (bad, s1) := s.poisonScan c
    let (badDraw, s2) := (s1.tellPoisoned c n bad).drawReads c faults
    if cause.isSome ∨ bad ≠ [] ∨ badDraw = true then
      let why := match cause with | some k => k | none => 5
      let s3 := s2.modStep c (fun t => { t with endDue := none, lost := some (n, why) })
      s3.setUnit (c / 256) { s3.unit (c / 256) with stopAsked := true }
    else
      let s3 := (s2.clearPoison c).modStep c (fun t => { t with endDue := none })
      if (s3.ctx c).step.repeat_ then
        let s4 := (s3.unroll c).modCtx c (fun x => { x with
          logits := []
          reqs := x.reqs.map (fun p => (p.1, { p.2 with draw := {} }))
          step := { x.step with repeat_ := false, subst := x.step.subst.filter (fun k => decide (n < k)) } })
        ((s4.voidAgain c).fenceStop c).stopAtEnd c n
      else
        let s4 := s3.boundaryActions c n faults
        let s5 := if s4.domainMode then s4.modCtx c (fun x => { x with after := s4.stepTables c }) else s4
        (s5.fenceStop c).stopAtEnd c n

/-! ### Replay (R422, R424) -/

/-- Replay the failed step `n` of a context: poison is cleared, the step number is set, and plan beat 0 waits for a slot boundary
after the set-up. -/
def State.replayStep (s : State) (c n : Nat) : State :=
  let tries := (s.ctx c).step.attempts + 1
  let s1 := ((s.clearPoison c).bump (c / 256) 0x80008 47).event [c / 256] 0x0103 .device n (tries + 1)
  s1.modCtx c (fun x => { x with
    steps := n
    logits := []
    reqs := x.reqs.map (fun p => (p.1, { p.2 with draw := {} }))
    step := { x.step with base := n, starting := some none, failed := none, endDue := none, lost := none, attempts := tries } })

/-- A context's step has failed and issue has stopped: the number of the failed step and its cause. -/
def Ctx.failing (x : Ctx) : Nat × Nat :=
  match x.step.lost, x.step.endDue with
  | some p, _ => p
  | none, some (some k) => (x.steps - 1, k)
  | none, _ => (x.steps, x.step.failed.getD 1)

/-- In partitioned mode the stewards replay the step, or abandon it; a plan that is being destroyed stops for good. -/
def State.failPlan (s : State) (c : Nat) : State :=
  let x := s.ctx c
  let (n, cause) := x.failing
  if x.destroying.isSome ∨ x.stopAt.isSome then
    (s.stopWith c n).stopPlan c
  else if s.usesFenced c then s.abandonStep c n 6
  else if x.step.attempts ≥ 2 then s.abandonStep c n cause
  else s.replayStep c n

/-- A break, a step that did not commit or a request to stop takes effect at a slot boundary: an end mark that has passed is scanned
first (R57, R421), issue stops, the regions gate, and the stewards or domain recovery act (R180, R422, R427, R435). -/
def State.stopEffect (s : State) (u : Nat) : State :=
  let y := s.unit u
  let s0 := (s.running u).foldl (fun (w : State) c => if (w.ctx c).step.endDue.isSome then w.stepCommit c [] else w) s
  let s1 := s0.setUnit u { s0.unit u with breaks := [], stopAsked := false, stopped := true, inBeat := false }
  let s2 := if y.breaks.isEmpty then s1 else s1.status u 0x30008 3
  let s3 := (List.range 64).foldl (fun (w : State) r =>
    if w.unitOf r = u then w.setRegion r { w.region r with done := true } else w) s2
  if s3.faults.coreFault ∧ s3.dom.isNone then s3
  else match s3.dom with
    | some d =>
      let (n, cause) := (s3.ctx d.ctx).failing
      let cause := if s3.faults.coreFault then 7 else if s3.usesFenced d.ctx ∧ (cause = 1 ∨ cause = 5) then 6 else cause
      let s4 := s3.modStep d.ctx (fun t => { t with attempts := t.attempts + 1 })
      match s4.faults.told with
      | some (k, o) => { s4 with faults := { s4.faults with told := none } }.enterRecovery n k o
      | none => s4.ownFault n cause
    | none => (s3.running u).foldl (fun (w : State) c => w.failPlan c) s3

end Sys2Proof.Machine
end

