-- ==== Sys2Proof/Machine/BeatOps.lean ====
section
/-!
DEFINITION. What happens at slot boundaries: the end of a plan beat, slips and drift, staging at due beats, the start of the next
plan beat (R130, R162, R168, R173 to R176, R225, R297, R300, R420).
-/
namespace Sys2Proof.Machine

/-- The regions of a slip unit, fused ones among them: all of them start each plan beat together (R25, R166, R173). -/
def State.unitRegions (s : State) (u : Nat) : List Nat := (List.range 64).filter (fun r => s.unitOf r == u)

/-- The stretch of a region's plan beat lies within the budget D × S, or the beat has gone on into a further slot (R168, R174). -/
def State.inBudget (s : State) (r : Nat) : Bool :=
  let x := s.unit (s.unitOf r)
  x.slipped || decide ((s.region r).stretch ≤ s.div * x.slack)

/-- A tile has no work cycle of the plan beat left to run. -/
def State.tileEnded (s : State) (k : Nat) : Bool :=
  let t := s.tile k
  t.code.isNone || decide (s.tileLimit k ≤ t.pos)

/-- Whether a region has completed its work cycles by the boundary (R168, R174): it has gated, or its stretch lies within the
budget and none of its tiles has a work cycle left. -/
def State.regionComplete (s : State) (r : Nat) : Bool :=
  let g := s.region r
  g.done || (s.inBudget r && (g.fenced || (tilesOfRegion r).all s.tileEnded))

/-- The plans that run in a unit and whose plan beat 0 does not wait. -/
def State.active (s : State) (u : Nat) : List Nat := (s.running u).filter (fun c => (s.ctx c).step.starting.isNone)

/-- Record a region's stretch at the end of a plan beat (R192). -/
def State.recordStretch (s : State) (r : Nat) : State :=
  let g := s.region r
  let t := min g.stretch 4095
  let off := 0x31000 + 16 * r
  let s1 := ((s.setField 0 off 11 0 t).setField 0 off 23 12 (min g.symp 4095)).setField 0 off 35 24 (max t (s.field 0 off 35 24))
  s1.setRegion r { g with done := true }

/-- The tiles of an engine of a plan. -/
def Plan.engineTiles (p : Plan) (e : Engine) : List Nat :=
  (p.tiles.filter (fun t => e.regions.getLsbD (regionOfTile (64 * t.y + t.x)))).map (fun t => 64 * t.y + t.x)

/-- The end mark of an Elreri plan whose engine tiles have all issued the STEPM of the step, at a tick; a tile that is ahead keeps its later
marks (R135). -/
def State.elreriMark (s : State) (c : Nat) (p : Plan) (tick : Nat) : State :=
  let ks := p.engines.flatMap p.engineTiles
  if !ks.isEmpty && ks.all (fun k => !(s.tile k).stepm.isEmpty) then
    (ks.foldl (fun (v : State) k => v.setTile k { v.tile k with stepm := (v.tile k).stepm.tail }) s).endMarkAt c tick
  else s

/-- Where every engine tile of an Elreri plan had issued a further STEPM by the end of the beat, that step's mark is the end of the same
beat: it follows the commit of the step before (R135, R299). -/
def State.nextMark (s : State) (c : Nat) : State :=
  let x := s.ctx c
  match x.plan with
  | some p =>
    if p.elreri && x.phase == .running && x.step.endDue.isNone && x.step.lost.isNone && !(s.unit (c / 256)).inBeat then
      s.elreriMark c p x.step.endTick
    else s
  | none => s

/-- The end of a plan beat for one plan: in a native plan the beat that R297 fixes is the end mark, and an engine tile without its
STEPM raises a break; in an Elreri plan the end mark is the end of the first beat after every engine tile has issued that STEPM (R130, R135,
R297). -/
def State.endBeatOf (s : State) (c : Nat) : State :=
  match (s.ctx c).plan with
  | none => s
  | some p =>
    let ks := p.engines.flatMap p.engineTiles
    let marked := ks.all (fun k => !(s.tile k).stepm.isEmpty)
    let clear := fun (w : State) => ks.foldl (fun (v : State) k => v.setTile k { v.tile k with stepm := [] }) w
    if p.elreri then
      s.elreriMark c p s.clk.tick
    else
      let b := (p.engines.map (·.boundary)).headD 1
      if s.planBeat c % p.stepBeats = p.stepBeats - b - 1 then
        let s1 := if marked then s else s.raiseBreak (c / 256) .timingBreak
        (clear s1).endMark c
      else clear s

/-- The plan beat in progress ends in every region of the unit. -/
def State.endBeat (s : State) (u : Nat) : State :=
  let s1 := (s.unitRegions u).foldl State.recordStretch s
  let s2 := s1.setUnit u { s1.unit u with inBeat := false, slipped := false }
  (s2.active u).foldl State.endBeatOf s2

/-- More than 8 slips of the device in 1 s ask for a lower operating point, no sooner than 1 s after the last such request (R420). -/
def State.slipRate (s : State) : State :=
  let now := s.clk.tick
  let recent := (s.clk.units.flatMap (fun p => p.2.slipTimes)).filter (fun t => decide (now ≤ t + ticksPerSecond))
  let again : Bool := match s.faults.slipRequest with | some t => decide (t + ticksPerSecond ≤ now) | none => true
  if recent.length > 8 ∧ again = true then
    let s1 := { s with clk := { s.clk with units := s.clk.units.map (fun (p : Nat × SlipUnit) => (p.1, { p.2 with slipTimes := [] })) },
                       faults := { s.faults with slipRequest := some now } }
    s1.eventAll 0x0208 .device 3 0
  else s

/-- Whether every plan of a unit is an Elreri image: its slips raise no debt (R176). -/
def State.onlyElreri (s : State) (u : Nat) : Bool :=
  (s.active u).all (fun c => match (s.ctx c).plan with | some p => p.elreri | none => true)

/-- Whether a native plan of the unit is slip-intolerant. -/
def State.intolerant (s : State) (u : Nat) : Bool :=
  (s.active u).any (fun c => match (s.ctx c).plan with | some p => !p.elreri && !p.slipTol | none => false)

/-- The unit slips (R174, R176): debt, counts, and PLAN_DRIFT where the plan does not tolerate it. -/
def State.slip (s : State) (u : Nat) (late : List Nat) : State :=
  let x := s.unit u
  let free := s.onlyElreri u
  let s1 := s.setUnit u { x with debt := if free then x.debt else min 1023 (x.debt + 1), slipTimes := inWindow s.clk.tick ticksPerSecond x.slipTimes,
                                 slipped := x.inBeat }
  let s2 := ((s1.status u 0x30008 0).bump u 0x30048 47)
  let s3 := late.foldl (fun (w : State) r => w.bump u (0x31008 + 16 * r) 31) s2
  let s4 := s3.slipRate
  if free then s4
  else if s.intolerant u ∨ (!s.domainMode ∧ x.debt + 1 ≥ 15) then s4.raiseBreak u .planDrift
  else s4

/-- DETM_CTRL.DET. -/
def State.det (s : State) : Bool := s.field 0 0xA0000 0 0 == 1

/-- Write the presence word of a staging entry (R223). -/
def State.setPresence (s : State) (e : StageFetch) (v : Nat) : State :=
  match (s.ctx e.ctx).weights with
  | some w => s.ctxWrite e.ctx (w.listBase + 32 * w.listCount + 8 * e.entry) (leBytes 8 v)
  | none => s

def State.setStage (s : State) (e : StageFetch) : State :=
  { s with mem := { s.mem with staging := s.mem.staging.map (fun o => if o.ctx = e.ctx ∧ o.entry = e.entry ∧ o.step = e.step then e else o) } }

/-- The plan beat that is an entry's due beat, counted from plan beat 0 (R224). -/
def State.dueBeat (s : State) (e : StageFetch) : Nat :=
  let x := s.ctx e.ctx
  (e.step - x.step.base) * ((x.plan.map (·.stepBeats)).getD 1) + e.due

/-- An early substitution is noted for the step of its entry.  DESIGN CHOICE (log entry 78): where that step's record stands already, in its
boundary beats after the commit, SUBST is set in the record (R302). -/
def State.noteSubst (s : State) (e : StageFetch) : State :=
  let x := s.ctx e.ctx
  let at_ := x.base + ((x.plan.map (·.stepArea)).getD 0) + 32 * (e.step % 4096)
  if e.step < x.steps ∧ x.step.endDue.isNone ∧ x.plan.isSome ∧ readNat s.mem.cellar at_ 8 = e.step then
    s.cellarWrite (at_ + 0x0C) (leBytes 2 (readNat s.mem.cellar (at_ + 0x0C) 2 ||| 8)) false
  else s.modStep e.ctx (fun t => { t with subst := t.subst ++ [e.step] })

/-- One entry at the boundary of its due beat (R225): whether it costs a slip. -/
def State.stageDue (s : State) (e : StageFetch) : Bool × State :=
  let u := e.ctx / 256
  let tol := match (s.ctx e.ctx).plan with | some p => p.slipTol | none => false
  if e.abandoned then (false, s)
  else if e.written = e.pages then (false, s.setPresence e 1)
  else
    let s0 := if e.subst && s.det then s.status u 0xA0008 1 else s
    let s1 := if e.counted then s0 else s0.bump u 0x50038 31
    if e.subst && !s.det then
      let s2 := (s1.setPresence e 0).status u 0x50030 8
      (false, (s2.setStage { e with abandoned := true, counted := true }).noteSubst e)
    else if tol && !e.counted then (true, (s1.status u 0x50030 6).setStage { e with counted := true })
    else (false, (s1.setStage { e with counted := true }).raiseBreak u .vaultLate)

/-- Every entry of a unit whose due beat would start: whether the unit slips.  Where a region is late the due beat cannot start,
and early substitution waits. -/
def State.stagingDue (s : State) (u : Nat) (late : Bool) : Bool × State :=
  let due := s.mem.staging.filter (fun e => e.ctx / 256 == u && (s.active u).contains e.ctx && !e.passed && s.dueBeat e == s.planBeats e.ctx &&
    !(late && (e.written == e.pages || (e.subst && !s.det))))
  due.foldl (fun (r : Bool × State) e => let (b, w) := r.2.stageDue e; (r.1 || b, w)) (false, s)

/-- The entries whose due beat has started: what was fetched stays known until a later fetch of the entry begins (R422), and every entry
has a fetch to come. -/
def State.stagingNext (s : State) (u : Nat) : State :=
  let mine := fun (e : StageFetch) => decide (e.ctx / 256 = u) && (s.active u).contains e.ctx && decide (s.dueBeat e < s.planBeats e.ctx)
  { s with mem := { s.mem with staging := stageRefill (s.mem.staging.map (fun e =>
    if mine e then { e with started := true, passed := true } else e)) } }

/-- A tile at the start of plan beat `n` (R129). -/
def Tile.beatStart (n limit : Nat) (t : Tile) : Tile :=
  let t1 := match t.hold with
    | .beat => { t with hold := .free }
    | .align k => if k ≤ n then { t with hold := .free } else t
    | _ => t
  t1.settle limit

/-- A tile's share of the start of a plan beat: a program goes on, and a tile without one takes what its landings held. -/
def State.tileBeat (s : State) (k : Nat) : State :=
  if (s.tile k).code.isSome then
    let n := match s.ctxOfTile k with | some c => s.planBeat c | none => 0
    s.putTile k ((s.tile k).beatStart n (s.tileLimit k))
  else if (s.tile k).recv.isEmpty then s
  else s.putTile k (s.tile k).drain

/-- The plan beat that BEAT_PLAN shows: that of the unit's lowest-numbered plan, which is DESIGN CHOICE where plans of one unit started in
different frames (R162, R192; log entry 75). -/
def State.notePlanBeat (s : State) (u : Nat) : State :=
  match s.active u with
  | c :: _ => s.setUnit u { s.unit u with planBeat := s.planBeat c }
  | [] => s

/-- The next plan beat starts in every region of the unit (R162, R163, R173, R243). -/
def State.startBeat (s : State) (u : Nat) : State :=
  let x := s.unit u
  let s1 := (s.setUnit u { x with started := x.started + 1, inBeat := true, slipped := false }).notePlanBeat u
  let s2 := (s1.unitRegions u).foldl (fun (w : State) r =>
    (tilesOfRegion r).foldl State.tileBeat ((w.setRegion r { w.region r with stretch := 0, symp := 0, done := false }).takeLandings r)) s1
  let s3 := { s2 with link := { s2.link with ports := s2.link.ports.map (fun (p : Nat × LinkPort) => (p.1, { p.2 with openUsed := 0 })) } }
  s3.stagingNext u

/-- Whether the boundary work of a commit is still due when the first plan beat of the next step would start (R300). -/
def State.commitLate (s : State) (u : Nat) : Bool :=
  (s.active u).any (fun c =>
    let x := s.ctx c
    x.step.endDue.isSome && (match x.plan with | some p => s.planBeats c % p.stepBeats == 0 || p.elreri | none => false))

/-- The halt scope is halted, or a halt waits (R141). -/
def SlipUnit.halting (x : SlipUnit) : Bool := x.halted || x.haltPend.isSome

/-- Start the next plan beat at this boundary unless an absent staging entry or late commit work prevents it (R225, R300). -/
def State.beginBeat (s : State) (u : Nat) (late : Bool) : State :=
  let (stage, s1) := s.stagingDue u false
  if late || stage then
    let s2 := s1.slip u []
    if (s2.unit u).breaks.isEmpty then s2 else s2.stopEffect u
  else if !(s1.unit u).breaks.isEmpty then s1.stopEffect u
  else
    let y := s1.unit u
    let halt : Option HaltInfo := if y.resume = some true then some ⟨4, 0, 0, 0, s1.clk.tick, 0⟩ else y.haltPend
    (s1.setUnit u { y with resume := none, halted := false, haltPend := halt }).startBeat u

/-- Start the next plan beat at this boundary if a plan waits for it and no halt or stop holds it. -/
def State.tryStart (s : State) (u : Nat) : State :=
  if (s.active u).isEmpty || (s.unit u).stopped then s
  else
    let x := s.unit u
    let go := !x.halting || x.resume.isSome
    if !go then s
    else
      s.beginBeat u (s.commitLate u)

/-- The first slot boundary after a CTX_DESTROY of a running context fixes the step its plan stops at (R275, R320). -/
def State.destroyPoint (s : State) (u : Nat) : State :=
  (s.running u).foldl (fun (w : State) c =>
    let x := w.ctx c
    if x.destroying.isSome && x.stopAt.isNone then w.setCtx c { x with stopAt := some x.steps } else w) s

/-- The regions that have completed stay gated through the slot that a slip adds (R174). -/
def State.gateComplete (s : State) (u : Nat) : State :=
  ((s.unitRegions u).filter s.regionComplete).foldl (fun (w : State) r => w.setRegion r { w.region r with done := true }) s

/-- What a slip unit does at a slot boundary before any plan beat starts: the beat in progress ends, breaks take effect, or the
unit slips.  The answer says whether a plan beat may start. -/
def State.boundary (s : State) (u : Nat) : Bool × State :=
  let late := if (s.unit u).inBeat then (s.unitRegions u).filter (fun r => !s.regionComplete r) else []
  let s := if late.isEmpty then s else s.gateComplete u
  let s1 := (if (s.unit u).inBeat && late.isEmpty then s.endBeat u else s).destroyPoint u
  let x := s1.unit u
  if !x.breaks.isEmpty || x.stopAsked then (false, s1.stopEffect u)
  else if !late.isEmpty then
    let s2 := (s1.stagingDue u true).2.slip u late
    if (s2.unit u).breaks.isEmpty then (false, s2) else (false, s2.stopEffect u)
  else (true, s1)

end Sys2Proof.Machine
end

