-- ==== Sys2Proof/Machine/PlanStart.lean ====
section
/-!
DEFINITION. The checks and the scheduling of a plan start (R153, R162, R273, R305, R345, R399), and the start itself (R154).
-/
namespace Sys2Proof.Machine

/-- BEAT_CFG as it reads: the written values while they are pending, else those in force (R191). -/
def SlipUnit.cfg (x : SlipUnit) : Nat × Nat := x.pend.getD (x.k, x.slack)

/-- The state of a context as the descriptors of R272 see it: a start that has executed counts as RUNNING, and the domain's context
counts as READY, or EMPTY, while the device waits in recovery (R273). -/
def State.phaseOf (s : State) (c : Nat) : CtxPhase :=
  let x := s.ctx c
  if x.destroying.isSome then .destroying
  else if x.phase = .running ∧ s.inRecovery = true ∧ (s.dom.map (·.ctx)) = some c then
    (if x.weights.isSome && x.plan.isSome then .ready else .empty)
  else if x.phase = .ready ∧ x.step.starting.isSome = true then .running
  else x.phase

/-- Whether a context's steps run: it is RUNNING, and its device does not wait in domain recovery with it (R273). -/
def State.runsSteps (s : State) (c : Nat) : Bool :=
  (s.ctx c).phase == .running && !(s.inRecovery && (s.dom.map (·.ctx)) == some c)

/-- Whether another context's start that has executed and waits for its frame is to use one of these regions: it counts as RUNNING
(R273; log entry 57). -/
def State.startPends (s : State) (c : Nat) (used : BitVec 64) : Bool :=
  s.ctxs.any (fun q => q.1 != c && q.2.phase == .ready && q.2.step.starting.isSome &&
    (match q.2.plan with | some p => p.used &&& used != 0 | none => false))

/-- The reasons a plan start is refused for: R153 (START), R273, R305, R399 and the counter rule of R437.  The staging list is read for it
under the decoder's findings (R201; see `State.readList`). -/
def State.startFaults (s : State) (c : Nat) (domain : Bool) (faults : List SymFault) : List Nat :=
  let x := s.ctx c
  match x.plan with
  | none => [rsState]
  | some p =>
    let (k, sl) := (s.unit (c / 256)).cfg
    reasons [
      (p.beatK != k || p.slack != sl || (p.elreri && domain) || (p.det && !s.det), rsStart),
      (s.phaseOf c != .ready || x.weights.isNone, rsState),
      ((List.range 64).any (fun r => p.used.getLsbD r && (match (s.region r).bound with | some o => o != c | none => false)) ||
        s.startPends c p.used, rsBusy),
      ((s.stagingList c faults).1.any (fun e => decide (p.stepBeats ≤ e.due)), rsGeometry),
      (decide (x.params.mapEntries < x.rowEntries) || p.engines.any (fun e => e.spec && x.params.shelfPos != 1), rsGeometry),
      (decide (2 ^ 63 ≤ x.steps), rsGeometry),
      (!p.det && s.det, rsDet)]

/-- The counts of the staging list's reads for the checks of a start (R201). -/
def State.readList (s : State) (c : Nat) (faults : List SymFault) : State := (s.stagingList c faults).2

/-- The mark is not acquired: a descriptor that starts a plan completes TIMING_BREAK (R158, R186). -/
def State.markBad (s : State) : Bool := !s.clk.markAcq || s.clk.holdover

/-- DETM_STATUS.IMAGE_REFUSED where the image is not deterministic (R399). -/
def State.noteDetRefusal (s : State) (c : Nat) : State :=
  match (s.ctx c).plan with
  | some p => if !p.det && s.det then s.status (c / 256) 0xA0008 0 else s
  | none => s

/-- The frame at which a plan started now in partitioned mode begins: the first that begins at least a frame later (R162). -/
def State.startFrame (s : State) : Nat :=
  if s.clk.tick = s.clk.frameStart then s.clk.frame + 1 else s.clk.frame + 2

/-- Schedule a plan start at a frame. -/
def State.scheduleStart (s : State) (c frame : Nat) (d : Option DescRef) : State :=
  let s1 := s.modCtx c (fun x => { x with step := { x.step with base := x.steps, starting := some (some frame), desc := d } })
  s1.setUnit (c / 256) { s1.unit (c / 256) with startHeld := true }

/-- A start that has executed does not take place: its descriptor completes with a status, and a start by REQ_ADMIT or RESTORE ends the
requests that wait for it (R158, R159, R186). -/
def State.dropStart (s : State) (c st : Nat) : State :=
  let x := s.ctx c
  let s1 := s.modStep c (fun t => { t with desc := none, starting := none, repeat_ := false })
  let waits := s1.ctxs.any (fun q => q.1 / 256 == c / 256 && q.2.step.starting.isSome)
  let s2 := s1.setUnit (c / 256) { s1.unit (c / 256) with startHeld := waits }
  match x.step.desc with
  | some d =>
    if d.opcode = 0x40 then { s2 with domNext := none, link := { s2.link with nextEpoch := none } }.completeOpen d st
    else if d.opcode = 0x42 then
      ({ s2 with dom := s2.dom.map (fun (m : Domain) => { m with recovery := true }), link := { s2.link with nextEpoch := none } }.setField 0 0x60028 0 0
        1).completeOpen d st
    else
      let s3 := s2.retireAll c st x.steps
      if d.opcode = 0x51 then s3.completeOpen d st else s3
  | none => s2

/-- Whether a plan that waits for its start begins now: at its frame's first tick, or, for a replay, at a slot boundary that does
not begin a landing beat (R154, R162, R422, R432). -/
def State.startsNow (s : State) (c : Nat) : Bool :=
  let x := s.unit (c / 256)
  if s.faults.coreFault then false
  else match (s.ctx c).step.starting with
  | some (some f) => s.clk.frame == f && s.clk.tick == s.clk.frameStart && decide (x.nextSlot ≤ 1)
  | some none => decide (x.nextSlot + 1 < s.slotsPerFrame (c / 256)) && x.stopped
  | none => false

/-- Set up one plan and make it run from the unit's plan beat `beat0`.  A replay or resume keeps the request state; a repeat step
reads the tables that its first run read, while those that the step's commit left are kept, and go back where a repeat step has failed and the
next step is resumed (R433); a commit still in progress makes the first steps void (R287). -/
def State.launch (s : State) (c beat0 : Nat) (replay : Bool) (faults : List SymFault) : State :=
  let s1 := s.modCtx c (fun x => { x with
    phase := .running
    steps := x.step.base
    lastCommit := if replay then x.lastCommit else (x.step.base + 2 ^ 64 - 1) % 2 ^ 64
    logits := []
    reqs := x.reqs.map (fun p => (p.1, { p.2 with draw := {} }))
    step := { x.step with starting := none, beat0 := beat0, failed := none, endDue := none, lost := none } })
  let s1 := if replay then s1.clearPoison c else s1
  let s2 := if (s1.ctx c).step.repeat_ then (s1.putTables c (s1.ctx c).retained).modCtx c (fun x => { x with rolled := true }) else s1.unroll c
  let s3 := (s2.setupPlan c faults).resetStaging c replay faults
  if replay then (if (s3.ctx c).step.repeat_ then s3 else s3.voidAgain c)
  else
    let void := ((s3.ctx c).swap.map (·.started)).getD false
    let s4 := s3.modCtx c (fun x => { x with
      swap := if void then x.swap.map (fun w => { w with voids := some 0 }) else x.swap
      step := { x.step with void_ := void } })
    let s5 := (s4.applyDue c (s4.ctx c).steps).wakeIdle c
    let s6 := (if void then s5 else s5.admitAll c (s5.ctx c).steps).writeTables c void
    if s6.domainMode then s6.modCtx c (fun x => { x with retained := s6.stepTables c, after := s6.stepTables c }) else s6

/-- The plan's regions begin plan beat 0 within a beat that the unit has already started. -/
def State.joinBeat (s : State) (c : Nat) : State :=
  (List.range 64).foldl (fun (v : State) r =>
    if (v.region r).bound = some c then
      (tilesOfRegion r).foldl State.tileBeat ((v.setRegion r { v.region r with stretch := 0, symp := 0, done := false }).takeLandings r)
    else v) s

/-- A plan that starts in a unit whose plan beat of this slot has begun already joins it, unless an absent staging entry holds its plan
beat 0 back (R162, R225). -/
def State.joinUnit (s : State) (c : Nat) : State :=
  let u := c / 256
  let (stage, s1) := s.stagingDue u false
  if stage then s1.slip u []
  else if !(s1.unit u).breaks.isEmpty then s1.stopEffect u
  else (((s1.modStep c (fun t => { t with beat0 := (s1.unit u).started - 1 })).notePlanBeat u).joinBeat c).stagingNext u

/-- The unit comes out of rest at its next slot boundary. -/
def State.wakeUnit (s : State) (u slot : Nat) : State :=
  s.setUnit u { s.unit u with started := 0, debt := 0, stopped := false, breaks := [], stopAsked := false, nextSlot := slot }

/-- A pending operating-point change keeps its frame when its numbering changes (R182). -/
def State.convertOp (s : State) (off : Nat) : State :=
  { s with clk := { s.clk with opPend := s.clk.opPend.map (fun o => { o with frame := (o.frame + off) % 2 ^ 64 }) } }

/-- The domain starts with its plan: domain mode begins, and IDENT_DEVICE changes in one update (R21, R33, R182, R345). -/
def State.enterDomain (s : State) (n : DomainStart) : State :=
  let s1 := { s with dom := some n.dom, domNext := none, clk := { s.clk with offset := n.offset } }
  ((s1.convertOp n.offset).setField 0 0x20 39 16 n.dom.id).setField 0 0x20 40 40 1

/-- Plan beat 0 of a start, replay or resume begins (R154, R162, R249, R345, R422, R432). -/
def State.planStart (s : State) (c : Nat) (faults : List SymFault) : State :=
  let u := c / 256
  let replay := match (s.ctx c).step.starting with | some none => true | _ => false
  if replay then
    let all := (s.running u).filter (fun k => (s.ctx k).step.starting == some none)
    let now := max s.clk.tick (s.nextBoundary u)
    let s1 := s.wakeUnit u ((s.unit u).nextSlot + 1)
    (all.foldl (fun (w : State) k => w.launch k 0 true faults) { s1 with clk := { s1.clk with tick := now } }).beginBeat u false
  else
    let code := ((s.ctx c).step.desc.map (·.opcode)).getD 0
    let s0 := match s.domNext with
      | some n => if code = 0x40 then s.enterDomain n else s
      | none => s
    let s1 := match s0.link.nextEpoch with
      | some (e, _) => if code = 0x40 ∨ code = 0x42 then s0.adoptEpoch e else s0
      | none => s0
    let x := s1.unit u
    let resume := code == 0x42
    let s2 := if (s1.active u).isEmpty then
        ((s1.wakeUnit u (max 1 x.nextSlot)).launch c 0 resume faults).beginBeat u false
      else if x.inBeat && x.nextSlot = 1 then (s1.launch c x.started resume faults).joinUnit c
      else s1.launch c x.started resume faults
    let s3 := s2.setUnit u { s2.unit u with startHeld := false }
    match (s3.ctx c).step.desc with
    | some d =>
      if d.opcode = 0x20 then s3.modStep c (fun t => { t with desc := none })
      else (s3.modStep c (fun t => { t with desc := none })).complete d stOk (s3.ctx c).step.base
    | none => s3

end Sys2Proof.Machine
end

