-- ==== Sys2Proof/Machine/CtxOps.lean ====
section
/-!
DEFINITION. Areas of a context's extent and the checks that the descriptors of contexts, loads and requests share (R268, R269, R278,
R307, R350).
-/
namespace Sys2Proof.Machine

/-- Whether two spans share a byte. -/
def spansMeet (a m b n : Nat) : Bool := m != 0 && n != 0 && decide (a < b + n) && decide (b < a + m)

/-- Whether any two spans of a list meet. -/
def anyMeet : List (Nat × Nat) → Bool
  | [] => false
  | p :: ps => ps.any (fun q => spansMeet p.1 p.2 q.1 q.2) || anyMeet ps

/-- The fixed areas of a context (R269). -/
def CtxParams.areas (p : CtxParams) : List (Nat × Nat) :=
  [(p.planBase, p.planBytes), (p.shelfBase, 131072 * p.shelfCount), (p.mapBase, 8 * p.mapEntries),
   (p.adapterBase, p.adapterSlots * p.adapterSlotBytes)]

/-- Whether a span lies in the extent and outside the fixed areas (R269). -/
def CtxParams.inFree (p : CtxParams) (a n : Nat) : Bool :=
  decide (a + n ≤ p.extentBytes) && p.areas.all (fun q => !spansMeet a n q.1 q.2)

/-- Whether a span lies in the step area of the loaded plan (R301). -/
def Ctx.inStepArea (x : Ctx) (a n : Nat) : Bool :=
  match x.plan with
  | some p => decide (p.stepArea ≤ a) && decide (a + n ≤ p.stepArea + stepAreaBytes p.engines)
  | none => false

/-- The bytes of a host read of `n` bytes. -/
def hostRead (bytes : List Byte) (n : Nat) : List Byte := (bytes ++ List.replicate (n - bytes.length) 0).take n

/-- A context that a descriptor may act on: EMPTY, READY or RUNNING (R272). -/
def State.ctxUsable (s : State) (c : Nat) : Bool :=
  s.phaseOf c == .empty || s.phaseOf c == .ready || s.phaseOf c == .running

/-- The contexts of a partition, or of the device in domain mode (R267). -/
def State.ctxsOf (s : State) (fn : Nat) : List Nat := (s.ctxs.filter (fun p => p.1 / 256 == fn)).map (·.1)

/-- Direction codes of a hatch (R362). -/
def dirOut : Nat := 0
def dirIn : Nat := 1

/-- The engines of a request's way from an engine on (R307). -/
def Ctx.chain (x : Ctx) (e : Nat) : Nat → List Engine
  | 0 => []
  | n + 1 =>
    match x.engine e with
    | some en => en :: (match en.handover with | some h => x.chain h n | none => [])
    | none => []

end Sys2Proof.Machine
end

