-- ==== Sys2Proof/Machine/Codewords.lean ====
section
/-!
DEFINITION. Codewords: filling and sending, receiving, sequencing, replay, the group tags, and the assembly of link messages
(R230 to R232, R236, R237, R242, R243, R249 to R251, R254, R255, R259).
-/
namespace Sys2Proof.Machine

/-! ### The codeword (R230, R231)

A codeword is its 640 message bytes: 8 of header, 13 crate positions of 48, 4 of tag share, 4 of CRC-32.  The reserved bits are 0
and the parity symbols are those of the published code (log entry 30). -/

/-- CRC-32 of IEEE 802.3. -/
def crc32 (bs : List Byte) : Nat :=
  let bit := fun (c : BitVec 32) (_ : Nat) => if c.getLsbD 0 then (c >>> 1) ^^^ 0xEDB88320#32 else c >>> 1
  (bs.foldl (fun (c : BitVec 32) b => (List.range 8).foldl bit (c ^^^ b.setWidth 32)) 0xFFFFFFFF#32 ^^^ 0xFFFFFFFF#32).toNat

/-- The link header. -/
def linkHeader (seq ack nakSeq : Nat) (nak fill fstart rpl : Bool) (epo credit : Nat) : List Byte :=
  leBytes 2 seq ++ leBytes 2 ack ++ leBytes 2 nakSeq ++
    leBytes 1 (nak.toNat + 2 * fill.toNat + 4 * fstart.toNat + 8 * rpl.toNat + epo % 16 * 16) ++ leBytes 1 (epo / 16 % 16 + credit % 16 * 16)

/-- The message of a codeword with its CRC. -/
def codewordBytes (hdr body share : List Byte) : List Byte :=
  let m := hdr ++ body ++ share
  m ++ leBytes 4 (crc32 m)

/-- Thirteen crate positions: the crates given, then IDLE. -/
def positions (cs : List Crate) : List Byte := ((cs.flatMap Crate.bytes) ++ List.replicate 624 0).take 624

/-- The IV of a group (R232). -/
def groupIv (g : Nat) : List Byte := beBytes 12 (g % 2 ^ 64 * 2 ^ 32)

/-- Encryption or decryption of codeword `n`, counted since the keys were made: its place in the counter stream of its group. -/
def groupXor (key : List Byte) (n : Nat) (body : List Byte) : List Byte :=
  xorBytes body (gcmStream (aesKeys key) (groupIv (n / 4)) (2 + 39 * (n % 4)) 39)

/-- The EPO a port sends (R249): 0 on store ports. -/
def State.epo (s : State) (p : Nat) : Nat := if isStore p then 0 else s.epoch % 256

/-- Encrypt a sequenced codeword's positions: the bytes sent, the tag share, and the port with the group counted on. -/
def LinkPort.seal (x : LinkPort) (body : List Byte) : List Byte × List Byte × LinkPort :=
  match x.txOn, x.txKey with
  | true, some key =>
    let n := x.txCount
    let ct := groupXor key n body
    let share := (((x.txTag.drop (4 * (n % 4))).take 4) ++ List.replicate 4 0).take 4
    let grp := x.txGroup ++ ct
    (ct, share, if n % 4 = 3 then { x with txCount := n + 1, txGroup := [], txTag := gcmTag (aesKeys key) (groupIv (n / 4)) [] grp }
      else { x with txCount := n + 1, txGroup := grp })
  | _, _ => (body, List.replicate 4 0, x)

/-! ### Filling (R236, R242, R243, R259) -/

/-- The frame-start crate.  In the frame before a domain starts here, it carries the domain's ID and frame number (R159). -/
def State.frameStartCrate (s : State) : Crate :=
  let due := match s.domNext with | some n => decide (s.clk.frame + 1 = n.frame) | none => false
  let (id, df) := match s.dom, s.domNext with
    | some d, _ => (d.id, (s.clk.frame + s.clk.offset) % 2 ^ 64)
    | none, some n => if due then (n.dom.id, (s.clk.frame + n.offset) % 2 ^ 64) else (0, 0)
    | none, none => (0, 0)
  let valid := s.dom.isSome || due
  mkCrate 0 0 0 1 0x0A 0 0 false
    (leBytes 1 1 ++ leBytes 1 (valid.toNat + 2 * s.clk.op) ++ leBytes 2 s.devId ++ leBytes 4 s.epoch ++ leBytes 8 s.clk.frame ++ leBytes 8 df ++
      leBytes 3 id ++ leBytes 1 0 ++ leBytes 4 (s.clk.tick - s.clk.frameStart) ++ leBytes 8 0)

/-- A probe or echo message: sending position, kind, number, and for an echo the probe's arrival position and the turnaround. -/
def probeCrate (msg pos kind num arr turn : Nat) : Crate :=
  mkCrate 0 0 0 1 0x0A 0 0 false
    (leBytes 1 2 ++ leBytes 1 0 ++ leBytes 1 1 ++ leBytes 1 msg ++ leBytes 4 pos ++ leBytes 1 kind ++ leBytes 1 num ++ leBytes 2 0 ++
      leBytes 4 arr ++ leBytes 4 turn ++ leBytes 20 0)

/-- Probes and echoes that fit into the free positions after the control queue: 1,024 probes in MEASURE, and one in each frame
afterwards (R256, R259; log entry 60). -/
def State.probeCrates (s : State) (p room : Nat) : List Crate × State :=
  let x := s.lport p
  let now := s.clk.tick
  let pos := now - s.clk.frameStart
  let n := mget 0 x.msgOut 2
  let es := x.toEcho.take room
  let ecs := (List.range es.length).map (fun i =>
    let e := es.getD i (0, 0)
    probeCrate ((n + i) % 256) pos 1 e.1 ((e.2 + 2 ^ 32 - s.clk.frameStart % 2 ^ 32) % 2 ^ 32) (now - e.2))
  let due := (s.pstate p == psMeasure && decide (x.probes < 1024)) || (s.pstate p == psActive && x.probeDue)
  let probe := due && decide (ecs.length < room)
  let m := n + ecs.length
  let pcs := if probe then [probeCrate (m % 256) pos 0 (x.probes % 256) 0 0] else []
  (ecs ++ pcs, s.setLport p { x with
    toEcho := x.toEcho.drop room
    probes := if probe then x.probes + 1 else x.probes
    probeDue := x.probeDue && !probe
    probeAt := if probe then mset 0 x.probeAt (x.probes % 256) now else x.probeAt
    msgOut := mset 0 x.msgOut 2 ((m + pcs.length) % 256) })

/-- Crate positions that dynamic and broadcast crates may take: the open allowance and the credits. -/
def State.openLeft (s : State) (p : Nat) : Nat :=
  let x := s.lport p
  if s.units.all (fun u => (s.running u).isEmpty) then x.credits else min x.credits (s.field 0 (0x40430 + 64 * p) 15 0 - x.openUsed)

/-- Fill the 13 positions of a new sequenced codeword in the order of R242; the first crate is a frame-start crate or not. -/
def State.fillCodeword (s : State) (p : Nat) : List Crate × Bool × State :=
  let x := s.lport p
  let st := s.pstate p
  let fs := x.fstart && decide (psCheck ≤ st) && decide (st ≤ psActive)
  let a := if fs then [s.frameStartCrate] else []
  let ctl := x.ctl.take (13 - a.length)
  let s1 := s.setLport p { x with fstart := x.fstart && !fs, ctl := x.ctl.drop (13 - a.length) }
  let b := a ++ ctl
  let (pr, s2) := s1.probeCrates p (13 - b.length)
  let c := b ++ pr
  let x2 := s2.lport p
  let plan := if st = psActive ∧ s.quiesced = false then x2.plan.take (13 - c.length) else []
  let d := c ++ plan
  let dyn := if st = psActive ∧ (s.quiesced = false ∨ isStore p = true) then x2.dyn.take (min (13 - d.length) (s2.openLeft p)) else []
  let s3 := s2.setLport p { x2 with plan := x2.plan.drop plan.length, dyn := x2.dyn.drop dyn.length, credits := x2.credits - dyn.length,
                                    openUsed := x2.openUsed + dyn.length }
  (d ++ dyn, fs, dyn.foldl (fun (u : State) k => if k.isBcast then u.copyLeft p k else u) s3)

/-- Both FINAL keying messages have passed: the port goes on to MEASURE (R237). -/
def State.keyingDone (s : State) (p : Nat) : State :=
  let x := s.lport p
  if s.pstate p = psKeying ∧ x.txOn = true ∧ x.gotFinal = true then s.setPstate p psMeasure 0 else s

/-- CODEWORD_SEND (R242, R251, R256). -/
def execCodewordSend (p : Nat) (s : State) : Host.Outcome State Fault Refusal :=
  let st := s.pstate p
  if p ≥ 24 ∨ st < psAlign ∨ st = psDown then .next s
  else
    let x := s.lport p
    let credit := min 15 x.owed
    let sent := fun (u : State) => u.modLport p (fun y => { y with nak := false, owed := y.owed - credit })
    let head := fun (seq : Nat) (fill fs rpl : Bool) (epo : Nat) => linkHeader seq x.rxAck x.rxNext x.nak fill fs rpl epo credit
    let filler := st == psAlign || st == psFolded || !x.lostLock.isEmpty || (st == psActive && decide (0 < s.failedLanes p))
    match filler, x.resend with
    | false, w :: ws =>
      let s1 := s.setLport p { x with resend := ws, replay := x.replay.map (fun y => if y.seq = w.seq then { y with tries := y.tries + 1 } else y) }
      .next ((sent s1).emit (.codeword p (codewordBytes (head w.seq false w.fstart true w.epo) w.body w.tag)))
    | _, _ =>
      if filler || decide (256 ≤ x.replay.length) then
        let (n, s1) := s.drawFree 5
        .next ((sent s1).emit (.codeword p (codewordBytes (head (n % 2 ^ 16) true false false (s.epo p)) (positions []) (List.replicate 4 0))))
      else
        let (cs, fs, s1) := s.fillCodeword p
        let (ct, share, y) := (s1.lport p).seal (positions cs)
        let w : SentWord := { seq := x.txSeq, body := ct, tag := share, fstart := fs, epo := s.epo p, tries := 0, crates := cs }
        let on := x.txOn || (x.sentFinal && !y.ctl.any (fun c => c.kind == 0x0A && c.data.headD 0 == 0x04))
        let s2 := s1.setLport p { y with txSeq := (x.txSeq + 1) % 2 ^ 16, replay := y.replay ++ [w], txOn := on,
                                         txKey := if on then y.keyed.map (·.1) else none }
        .next (((sent s2).keyingDone p).emit (.codeword p (codewordBytes (head x.txSeq false fs false (s.epo p)) ct share)))

/-! ### Receiving -/

/-- Assemble a part of a link message.  A message that is discarded is counted once, and its other parts are ignored (R237; log entry
60). -/
def State.linkPart (s : State) (p at_ : Nat) (c : Crate) : State :=
  let sub := fieldAt c.data 0 1
  let part := fieldAt c.data 1 1
  let parts := fieldAt c.data 2 1
  let key := sub * 256 + fieldAt c.data 3 1
  let need := if sub = 4 then 32 else if sub = 3 then 3 else 1
  let x := s.lport p
  let body := (c.data.drop 4).take 36
  let next := fun (a : Assembly) => if a.got + 1 < a.parts then mput x.msgIn key { a with got := a.got + 1, dead := true } else mdel x.msgIn key
  let drop := fun (a : Assembly) => (s.setLport p { x with msgIn := next a }).discOther
  let first := if part = 0 ∧ need ≤ parts ∧ parts ≤ 32 then none else some (Assembly.mk key parts 0 at_ [] true)
  let put := fun (a : Assembly) =>
    let final := sub == 4 && a.got == a.parts && fieldAt a.body 615 1 % 2 == 1
    s.setLport p { x with msgIn := mput x.msgIn key a, rxOn := x.rxOn || final }
  match mfind x.msgIn key with
  | none => match first with | none => put ⟨key, parts, 1, at_, body, false⟩ | some a => drop a
  | some a =>
    if a.dead then s.setLport p { x with msgIn := next a }
    else if a.got = a.parts then (match first with | none => put ⟨key, parts, 1, at_, body, false⟩ | some b => drop b)
    else if part = a.got ∧ parts = a.parts then put { a with got := a.got + 1, body := a.body ++ body }
    else drop a

/-- A LINK_CTL crate: a frame-start crate waits for its command, other parts are assembled. -/
def State.linkCtl (s : State) (p at_ : Nat) (c : Crate) : State :=
  let sub := fieldAt c.data 0 1
  if sub = 1 then s.modLport p (fun x => { x with fsIn := x.fsIn ++ [(at_, c)] })
  else if 2 ≤ sub ∧ sub ≤ 5 then s.linkPart p at_ c
  else s.discOther

/-- The crates of a codeword are released (R232, R234, R249): `plain` says that it came before encryption. -/
def State.release (s : State) (p epo at_ : Nat) (plain : Bool) (body : List Byte) : State :=
  let cs := (List.range 13).map (fun i => Crate.ofBytes ((body.drop (48 * i)).take 48))
  cs.foldl (fun (u : State) c =>
    let back := fun (w : State) => if c.cls ≥ 2 then w.modLport p (fun x => { x with owed := x.owed + 1 }) else w
    if c.kind = 0 then u
    else if kindClass c.kind ≠ some c.cls then back u.discOther
    else if c.kind = 0x0A then u.linkCtl p at_ c
    else if plain then back u.discOther
    else if isStore p = false ∧ epo ≠ u.epoch % 256 then back (u.discEpoch 1)
    else u.modLport p (fun x => { x with ingress := x.ingress ++ [c] })) s

/-- The sender's side of a header: acknowledgement, credits, and a NAK, on which it resends (R251, R254). -/
def State.reverse (s : State) (p ack nakSeq : Nat) (nak : Bool) (credit : Nat) : State :=
  let x := s.lport p
  let left := match findIdx? (fun (w : SentWord) => w.seq == ack) x.replay 0 with
    | some (i, _) => x.replay.drop (i + 1)
    | none => x.replay
  let x1 := { x with replay := left, resend := x.resend.filter (fun w => left.any (fun y => y.seq == w.seq)), credits := x.credits + credit }
  match nak, findIdx? (fun (w : SentWord) => w.seq == nakSeq) left 0 with
  | true, some (i, _) =>
    let all := left.drop i
    let lost := all.filter (fun w => decide (16 ≤ w.tries))
    let keep := fun (w : SentWord) => !(lost.any (fun y => y.seq == w.seq))
    let n := (lost.map (fun w => (w.crates.filter (fun c => c.kind != 0)).length)).foldl (· + ·) 0
    let s1 := s.setLport p { x1 with replay := left.filter keep, resend := all.filter keep, replays := x1.replays + 1 }
    let s2 := s1.bump 0 (0x40420 + 64 * p) 47
    if n = 0 then s2 else s2.bumpAt 0 0x40020 47 0 n
  | _, _ => s.setLport p x1

/-- The codeword asks for a resend. -/
def State.askNak (s : State) (p : Nat) : State := s.modLport p (fun x => { x with nak := true, nakAt := s.clk.tick })

/-- F crates held at a port die (R248). -/
def State.heldAt (s : State) (die : Nat) : Nat := (s.link.held.filter (fun h => h.die == die)).length

/-- The port's next crate is an F crate for this device and the hold buffer is full (R248). -/
def State.blocked (s : State) (p : Nat) : Bool :=
  match (s.lport p).ingress with
  | c :: _ => c.fence && !c.isBcast && c.dst == s.devId && decide (256 ≤ s.heldAt (dieOfPort p))
  | [] => false

/-- Verify the group before the one just completed, and release it (R232, R255). -/
def State.verifyGroup (s : State) (p g : Nat) (key tag : List Byte) : State :=
  let x := s.lport p
  let grp := x.rxHeld.take 4
  let ct := grp.flatMap (·.body)
  if gcmTag (aesKeys key) (groupIv g) [] ct = tag then
    let s1 := s.setLport p { x with rxHeld := x.rxHeld.drop 4, rxAck := ((grp.getLast?).map (·.seq)).getD x.rxAck, tagFail := none }
    (List.range 4).foldl (fun (u : State) i =>
      match grp[i]? with
      | some w => u.release p w.epo w.at_ false (groupXor key (4 * g + i) w.body)
      | none => u) s1
  else if x.tagFail = some g then s.portDown p reAuth
  else (s.setLport p { x with rxNext := ((grp.head?).map (·.seq)).getD x.rxNext, rxCount := 4 * g, rxHeld := [], rxTag := [],
                              tagFail := some g }).askNak p

/-- Accept the codeword whose SEQ is expected. -/
def State.accept (s : State) (p seq epo : Nat) (body share : List Byte) : State :=
  let x := { s.lport p with rxNext := (seq + 1) % 2 ^ 16, nak := false, nakAt := 0 }
  if !x.rxOn then (s.setLport p { x with rxAck := seq }).release p epo s.clk.tick true body
  else
    let n := x.rxCount
    let tag := x.rxTag ++ share
    let x1 := { x with rxCount := n + 1, rxHeld := x.rxHeld ++ [⟨seq, epo, s.clk.tick, body⟩], rxTag := if n % 4 = 3 then [] else tag }
    let s1 := s.setLport p x1
    if n % 4 = 3 ∧ x1.rxHeld.length = 8 then s1.verifyGroup p (n / 4 - 1) (x1.rxKey.getD []) tag else s1

/-- CODEWORD_RECEIVE: the message of a codeword as the decoder delivers it, whether the decoder failed, and the corrected symbols of
lanes 0 to 3 (R250, R251). -/
def execCodewordReceive (p : Nat) (cw : List Byte) (bad : Bool) (corr : List Nat) (s : State) : Host.Outcome State Fault Refusal :=
  let st := s.pstate p
  if p ≥ 24 ∨ st < psAlign ∨ st = psDown then .next s
  else
    let total := (corr.take 4).foldl (· + ·) 0
    let s1 := (if total = 0 then s else s.bumpAt 0 (0x40428 + 64 * p) 47 0 total).modLport p (fun x =>
      { x with syms := (List.range 4).map (fun i => x.syms.getD i 0 + corr.getD i 0) })
    let wrong := bad || cw.length != 640 || crc32 (cw.take 636) != fieldAt cw 636 4
    let seqd := st != psAlign && st != psFolded
    if wrong then .next (if seqd then s1.askNak p else s1)
    else
      let f := fieldAt cw 6 1
      let s2 := if seqd then s1.reverse p (fieldAt cw 2 2) (fieldAt cw 4 2) (f % 2 == 1) (fieldAt cw 7 1 / 16) else s1
      if f / 2 % 2 = 1 ∨ seqd = false then .next s2
      else
        let seq := fieldAt cw 0 2
        let x := s2.lport p
        if seq ≠ x.rxNext then .next (s2.askNak p)
        else if s2.blocked p || (x.rxOn && x.rxKey.isNone) then .next s2
        else .next (s2.accept p seq (f / 16 + fieldAt cw 7 1 % 16 * 16) ((cw.drop 8).take 624) ((cw.drop 632).take 4))

/-- NAK_REPEAT: the expected codeword has not come within the round trip plus 100 ns (R251). -/
def execNakRepeat (p : Nat) (s : State) : Host.Outcome State Fault Refusal :=
  let x := s.lport p
  if x.nakAt = 0 ∨ x.nak = true ∨ s.pstate p < psCheck ∨ s.pstate p = psDown then .next s
  else .next ((s.advanceTo (x.nakAt + s.field 0 (plat p) 47 32 + 700)).askNak p)

/-- REPLAY_RATE_INTERVAL: a counting interval of 1 s ends; after ten in a row with more than 1,000 replays the lane with the most
corrected symbols is degraded and folds the port at the next frame start (R253, R420). -/
def execReplayRateInterval (p : Nat) (s : State) : Host.Outcome State Fault Refusal :=
  if p ≥ 24 then .next s
  else
    let x := s.lport p
    let at_ := x.intervalAt + ticksPerSecond
    let ivs := ((x.replays, x.syms) :: x.intervals).take 10
    let s1 := s.advanceTo at_
    let y := { x with replays := 0, syms := [0, 0, 0, 0], intervals := ivs, intervalAt := at_ }
    if ivs.length = 10 ∧ ivs.all (fun i => decide (1000 < i.1)) = true then
      let sum : Nat → Nat := fun l => (ivs.map (fun (i : Nat × List Nat) => i.2.getD l 0)).foldl (· + ·) 0
      let lane := [1, 2, 3].foldl (fun (b l : Nat) => if sum b < sum l then l else b) 0
      .next ((s1.setLport p { y with intervals := [], foldAt := some lane }).event (s.portFns p) 0x0407 (.port p) lane
        ((ivs.map (·.1)).foldl (· + ·) 0))
    else .next (s1.setLport p y)

end Sys2Proof.Machine
end

