-- ==== Sys2Proof/Machine/Training.lean ====
section
/-!
DEFINITION. Training: presence, adaptation, lock, the neighbour check, keying, measurement, and the lanes (R252, R253, R256 to R262,
R237).
-/
namespace Sys2Proof.Machine

/-- A port begins to train: the link state is made afresh (R256).  A port that the charter does not enable or the grade lacks is
DISABLED. -/
def State.startTraining (s : State) (p : Nat) : State :=
  let old := s.lport p
  let s1 := s.setLport p { msgOut := old.msgOut, intervalAt := s.clk.tick, fstart := old.fstart }
  if s.portUsable p then ((s1.setPstate p psDetect 0).setField 0 (pstat p) 15 12 15).setField 0 (plat p) 48 48 0
  else s1.setPstate p psDisabled 0

/-- The flyover connector of a port: FX0 to FX5 carry X, Y and Z ports of the die A, then of die B, with one global or store port each (R14). -/
def connectorOf (p : Nat) : Nat :=
  if p < 18 then p / 6 + 3 * (p / 3 % 2) else if p < 20 then p - 18 else if p < 22 then p - 17 else if p = 22 then 2 else 5

/-- LANE_PRESENCE_DETECTED: `cable` is what FXn_PRSNT# of the port's connector reads; with a cable there, the neighbour's lanes are present, but
for those found open or shorted (R256, R459; log entry 82). -/
def execLanePresenceDetected (p : Nat) (cable : Bool) (bad : List Nat) (s0 : State) : Host.Outcome State Fault Refusal :=
  if p < 24 ∧ s0.pstate p = psDetect then
    let others := s0.link.cables.filter (fun n => n != connectorOf p)
    let s := { s0 with link := { s0.link with cables := if cable then others ++ [connectorOf p] else others } }
    if cable then
      let s1 := bad.foldl (fun (u : State) l => u.laneFail p l) s
      .next (if s1.pstate p = psDetect then s1.setPstate p psEqualise 0 else s1)
    else .next s
  else .next s0

/-- DETECT_TIMEOUT: no neighbour for 50 ms (R256). -/
def execDetectTimeout (p : Nat) (s : State) : Host.Outcome State Fault Refusal :=
  if p < 24 ∧ s.pstate p = psDetect then .next ((s.advanceTo ((s.lport p).since + 50 * ticksPerMs)).portDown p reNoNeighbour) else .next s

/-- EQUALISE_DONE (R256). -/
def execEqualiseDone (p : Nat) (s : State) : Host.Outcome State Fault Refusal :=
  if p < 24 ∧ s.pstate p = psEqualise then .next (s.setPstate p psAlign 0) else .next s

/-- CODEWORD_LOCK: codeword lock and lane deskew are achieved (R256). -/
def execCodewordLock (p : Nat) (s : State) : Host.Outcome State Fault Refusal :=
  if p < 24 ∧ s.pstate p = psAlign then .next (s.setPstate p psCheck 0) else .next s

/-! ### Check (R237, R257, R258) -/

/-- The identity hash as IDENT_IDHASH shows it (R32). -/
def State.identityHash (s : State) : List Byte := (List.range 8).flatMap (fun i => leBytes 8 (s.reg 0 (0x80 + 8 * i)).toNat)

/-- The body of the device's check message. -/
def State.checkBody (s : State) (p : Nat) : List Byte :=
  let v := fun (hi lo : Nat) => s.field 0 0x38 hi lo
  leBytes 2 s.devId ++ leBytes 1 p ++ leBytes 1 (v 39 32) ++ leBytes 1 (v 31 24) ++ leBytes 1 (v 7 0) ++ leBytes 1 (v 15 8) ++
    leBytes 1 (v 23 16) ++ leBytes 2 (v 55 40) ++ leBytes 2 s.link.slice ++ leBytes 4 0 ++ s.identityHash ++ List.replicate 28 0

def State.sendCheck (s : State) (p : Nat) : State := s.sendMessage p 0x03 3 (s.checkBody p)

/-- CHECK_MESSAGE_SEND: a port in CHECK sends its check message every 100 µs (R237). -/
def execCheckMessageSend (p : Nat) (s : State) : Host.Outcome State Fault Refusal :=
  if p < 24 ∧ s.pstate p = psCheck then .next (s.sendCheck p) else .next s

/-- QUARANTINE_CHECK_SEND: a quarantined port sends a check message every 1 s (R256). -/
def execQuarantineCheckSend (p : Nat) (s : State) : Host.Outcome State Fault Refusal :=
  if p < 24 ∧ s.pstate p = psQuarantine then .next (s.sendCheck p) else .next s

/-- The first complete message of a subtype that satisfies a test, taken out of the assemblies. -/
def State.takeMessage (s : State) (p sub : Nat) (ok : List Byte → Bool) : Option (Assembly × State) :=
  let x := s.lport p
  match x.msgIn.find? (fun m => m.1 / 256 == sub && !m.2.dead && m.2.got == m.2.parts && ok m.2.body) with
  | some m => some (m.2, s.setLport p { x with msgIn := mdel x.msgIn m.1 })
  | none => none

/-- The first mismatch of a check message with the charter's pairing entry (R257). -/
def State.checkFault (s : State) (p : Nat) (b : List Byte) : Option Nat :=
  let e := mget {} s.link.pairing p
  if fieldAt b 2 1 ≠ e.port ∨ fieldAt b 0 2 ≠ e.dev then some rePairing
  else if (b.drop 16).take 64 ≠ e.hash then some reIdentity
  else if fieldAt b 10 2 ≠ s.link.slice then some reSlice
  else if fieldAt b 3 1 ≠ s.field 0 0x38 39 32 then some reVersion
  else none

/-- CHECK_MESSAGE_RECEIVE (R237, R257, R258): the neighbour is recorded, and in CHECK the comparison decides; the boot ROM accepts any node
identity (R369). -/
def execCheckMessageReceive (p : Nat) (s : State) : Host.Outcome State Fault Refusal :=
  match s.takeMessage p 3 (fun _ => true) with
  | none => .next s
  | some (m, s0) =>
    let b := m.body
    let fw := fieldAt b 5 1 + fieldAt b 6 1 * 2 ^ 8 + fieldAt b 7 1 * 2 ^ 16
    let nbr := fieldAt b 0 2 + fieldAt b 2 1 % 32 * 2 ^ 16 + fieldAt b 10 2 * 2 ^ 21 + fw * 2 ^ 37 + 2 ^ 61
    let s1 := s0.setReg 0 (pnbr p) (BitVec.ofNat 64 nbr)
    let s2 := (s1.setField 0 (pstat p) 25 18 (fieldAt b 3 1)).setField 0 (pstat p) 33 26 (min (fieldAt b 4 1) (s.field 0 0x38 31 24))
    let s3 := s2.modLport p (fun x => { x with nbHash := (b.drop 16).take 64, nbAbi := fieldAt b 8 2 })
    if s.pstate p = psCheck then
      let s4 := s3.sendCheck p
      match (if s.boot.link = some p then none else s.checkFault p b) with
      | some r => .next (((s4.setPstate p psQuarantine r).linkStatus 0).event (s.portFns p) 0x0401 (.port p) r (fieldAt b 0 2))
      | none =>
        let (e, s5) := s4.drawEntropy
        .next ((s5.setPstate p psKeying 0).modLport p (fun x => { x with eph := e, sentFinal := false, gotFinal := false, keyed := none }))
    else if s.pstate p = psKeying then .next (s3.sendCheck p)
    else .next s3

/-! ### Keying (R237, R262)

The ephemeral keys, the shared secret and the signatures are free values (log entry 11). -/

/-- The device's ephemeral public key of a port. -/
def LinkPort.publicKey (x : LinkPort) : List Byte := beBytes 96 (Config.secret 1 (leBytes 8 x.eph))

/-- The body of the device's keying message. -/
def State.keyingBody (s : State) (p : Nat) (final : Bool) : List Byte :=
  let b := (s.lport p).publicKey ++ (s.link.identity ++ List.replicate 516 0).take 516 ++ leBytes 2 s.link.slice ++ leBytes 1 p ++ leBytes 1 final.toNat
  b ++ beBytes 512 (Config.secret 2 b) ++ List.replicate 24 0

/-- KEYING_MESSAGE_SEND: every 1 ms with FINAL = 0 until the FINAL message is on its way (R237). -/
def execKeyingMessageSend (p : Nat) (s : State) : Host.Outcome State Fault Refusal :=
  if p < 24 ∧ s.pstate p = psKeying ∧ (s.lport p).sentFinal = false then .next (s.sendMessage p 0x04 32 (s.keyingBody p false)) else .next s

/-- The order of two port names in the salt: XP before XN and so on, and ascending (R262). -/
def saltPorts (a b : Nat) : Nat × Nat := if a ≤ b then (a, b) else (b, a)

/-- The keys of a port, sending and receiving: the first derived key is that of the direction from the first-named end (log entry
31). -/
def State.linkKeys (s : State) (p nbPort : Nat) (nbPub : List Byte) : List Byte × List Byte :=
  let shared := beBytes 48 (Config.secret 3 (leBytes 8 (s.lport p).eph ++ nbPub))
  let (a, b) := saltPorts p nbPort
  let k := hkdf sha512 (leBytes 2 s.link.slice ++ leBytes 1 a ++ leBytes 1 b) shared [] 64
  if p < nbPort ∨ (p = nbPort ∧ s.devId ≤ s.observed p) then (k.take 32, k.drop 32) else (k.drop 32, k.take 32)

/-- KEYING_MESSAGE_RECEIVE (R237, R262): a message that does not verify is ignored. -/
def execKeyingMessageReceive (p : Nat) (s : State) : Host.Outcome State Fault Refusal :=
  match s.takeMessage p 4 (fun _ => true) with
  | none => .next s
  | some (m, s0) =>
    let b := m.body
    let x := s0.lport p
    let ok := sha512 ((b.drop 96).take 516) == x.nbHash && rsaVerify ((b.drop 96).take 512) ((b.drop 608).take 4) ((b.drop 616).take 512) (b.take 616) &&
      (s.boot.link == some p || fieldAt b 612 2 == s.link.slice)
    if s.pstate p ≠ psKeying ∨ ok = false then .next s0
    else
      let ks := x.keyed.getD (s0.linkKeys p (fieldAt b 614 1) (b.take 96))
      let y := { x with keyed := some ks, rxKey := some ks.2, gotFinal := x.gotFinal || fieldAt b 615 1 % 2 == 1, sentFinal := true }
      let s1 := s0.setLport p y
      .next ((if x.sentFinal then s1 else s1.sendMessage p 0x04 32 (s.keyingBody p true)).keyingDone p)

/-- KEYING_TIMEOUT: 50 ms in KEYING (R237). -/
def execKeyingTimeout (p : Nat) (s : State) : Host.Outcome State Fault Refusal :=
  if p < 24 ∧ s.pstate p = psKeying then .next ((s.advanceTo ((s.lport p).since + 50 * ticksPerMs)).portDown p reKeying) else .next s

/-- LINK_MESSAGE_TIMEOUT: a message of a subtype is incomplete 100 µs after its first part and is discarded; one that was discarded
before is no longer awaited (R237). -/
def execLinkMessageTimeout (p sub : Nat) (s : State) : Host.Outcome State Fault Refusal :=
  let x := s.lport p
  match x.msgIn.find? (fun m => m.1 / 256 == sub && decide (m.2.got < m.2.parts)) with
  | some m =>
    let s1 := (s.advanceTo (m.2.at_ + 100 * ticksPerUs)).setLport p { x with msgIn := mdel x.msgIn m.1 }
    .next (if m.2.dead then s1 else s1.discOther)
  | none => .next s

/-! ### Measurement (R189, R236, R259) -/

/-- The measured latency of the samples of the last 16 frames: a multiple of 4 ticks (R259). -/
def LinkPort.latency (x : LinkPort) : Option Nat :=
  let all := (x.oneWay :: x.samples).take 16 |>.filterMap id
  match all with
  | [] => none
  | v :: vs =>
    let m := vs.foldl max v + 1260
    some (((m + 3) / 4 * 4) % 2 ^ 32).toNat

/-- A one-way sample of a port. -/
def State.sample (s : State) (p : Nat) (v : Int) : State :=
  let s1 := s.modLport p (fun x => { x with oneWay := some (match x.oneWay with | some o => max o v | none => v) })
  match (s1.lport p).latency with
  | some l => s1.setField 0 (plat p) 31 0 l
  | none => s1

/-- The position of a tick from this device's frame start. -/
def State.posOf (s : State) (t : Nat) : Int := (t : Int) - (s.clk.frameStart : Int)

/-- How many whole frames lie between a difference of two positions and the same difference counted from the nearest frame starts:
the two ends of a link may stand in different frames (R189, R259; log entry 61). -/
def nearFrame (v : Int) : Int := if v > 1310720 then 1 else if v < -1310720 then -1 else 0

/-- A difference of two frame positions, counted from the nearest frame starts. -/
def reduceFrame (v : Int) : Int := v - 2621440 * nearFrame v

/-- PROBE_RECEIVE: the one-way sample is taken and the probe is to be echoed (R259). -/
def execProbeReceive (p : Nat) (s : State) : Host.Outcome State Fault Refusal :=
  match s.takeMessage p 2 (fun b => fieldAt b 4 1 == 0) with
  | none => .next s
  | some (m, s1) =>
    .next ((s1.sample p (reduceFrame (s.posOf m.at_ - (fieldAt m.body 0 4 : Int)))).modLport p (fun x =>
      { x with toEcho := x.toEcho ++ [(fieldAt m.body 5 1, m.at_)] }))

/-- The longest round trip a port may have, in ticks: 600 ns, or 1,400 ns on a global port (R229). -/
def rttLimit (p : Nat) : Nat := if isGlobal p then 9800 else 4200

/-- ECHO_RECEIVE: a round-trip sample, the echo time less the turnaround (R259). -/
def execEchoReceive (p : Nat) (s : State) : Host.Outcome State Fault Refusal :=
  match s.takeMessage p 2 (fun b => fieldAt b 4 1 == 1) with
  | none => .next s
  | some (m, s1) =>
    let x := s1.lport p
    let rtt := max x.rtt (m.at_ - mget 0 x.probeAt (fieldAt m.body 5 1) - fieldAt m.body 12 4)
    let s2 := (s1.setLport p { x with rtt := rtt, echoes := x.echoes + 1 }).setField 0 (plat p) 47 32 (min rtt 65535)
    .next (if (s2.pstate p = psActive ∨ s2.pstate p = psFolded) ∧ rttLimit p < rtt then s2.portDown p reLongPath else s2)

/-- The boot ROM asks the storage node for the bundle, once the port it has trained is ACTIVE (R235, R369). -/
def State.bootRequest (s : State) (p : Nat) : State :=
  if s.boot.link = some p then
    let len := s.field 0 0x1210 31 0 + 8192 + s.field 0 0x1210 47 32
    let tag := s.link.tags % 2048
    let c := mkCrate (s.field 0 0x1218 15 0) 0 0 2 0x0C tag 0 false
      (leBytes 8 (s.reg 0 0x1208).toNat ++ leBytes 4 len ++ leBytes 4 tag ++ leBytes 8 (s.reg 0 0x1220).toNat ++ leBytes 8 (s.reg 0 0x1228).toNat ++
        leBytes 2 s.devId ++ leBytes 6 0)
    let i : Incoming := { stream := 4096 + tag, base := 0, addr := 0, len := len, ctx := 0, got := 0, load := some (0, 0, 0), vault := true, buf := [],
                          poison := false, drop := false }
    { s with link := { s.link with tags := s.link.tags + 1, incoming := s.link.incoming ++ [i] } }.enqueue p c
  else s

/-- MEASURE_DONE: 1,024 probes are echoed (R229, R256). -/
def execMeasureDone (p : Nat) (s : State) : Host.Outcome State Fault Refusal :=
  let x := s.lport p
  if p < 24 ∧ s.pstate p = psMeasure ∧ 1024 ≤ x.echoes then
    let s1 := s.setField 0 (plat p) 48 48 1
    if rttLimit p < x.rtt then .next (s1.portDown p reLongPath)
    else if 1 ≤ s.failedLanes p then .next (s1.foldPort p)
    else .next ((s1.setPstate p psActive 0).bootRequest p)
  else .next s

/-- The start of the domain does not take place: a neighbour disagrees on the domain frame number (R159, R432). -/
def State.failStart (s : State) : State :=
  (s.ctxs.filter (fun q => q.2.step.starting.isSome && (match q.2.step.desc with
    | some d => d.opcode == 0x40 || d.opcode == 0x42
    | none => false))).foldl (fun (u : State) q => u.dropStart q.1 stLinkMismatch) s

/-- The frame exchange of R159: in the frame before a domain start or resume, a neighbour of the same domain with another domain
frame number. -/
def State.frameExchange (s : State) (f : NeighbourFrame) : State :=
  let due := s.ctxs.any (fun q => match q.2.step.desc, q.2.step.starting with
    | some d, some (some fr) => (d.opcode == 0x40 || d.opcode == 0x42) && fr == s.clk.frame + 1
    | _, _ => false)
  let (id, off) := match s.dom, s.domNext with
    | some d, _ => (some d.id, s.clk.offset)
    | none, some n => (some n.dom.id, n.offset)
    | none, none => (none, 0)
  if due && f.inDomain && some f.domain == id && f.dframe != (s.clk.frame + off) % 2 ^ 64 then s.failStart else s

/-- FRAME_START_CRATE_RECEIVE (R159, R184, R189, R236, R259). -/
def execFrameStartCrateReceive (p : Nat) (s : State) : Host.Outcome State Fault Refusal :=
  match (s.lport p).fsIn with
  | [] => .next s
  | (at_, c) :: rest =>
    let b := c.data
    let fl := fieldAt b 1 1
    let f : NeighbourFrame :=
      { valid := true, op := fl / 2 % 4, dev := fieldAt b 2 2, epoch := fieldAt b 4 4, frame := fieldAt b 8 8, dframe := fieldAt b 16 8,
        domain := fieldAt b 24 3, inDomain := fl % 2 == 1, arrival := at_ - s.clk.frameStart }
    let s1 := (s.modLport p (fun x => { x with fsIn := rest, frameInfo := f })).sample p (reduceFrame (s.posOf at_ - (fieldAt b 28 4 : Int)))
    let far := s.posOf at_ - (fieldAt b 28 4 : Int) - (((s.lport p).rtt / 2 : Nat) : Int)
    let est := reduceFrame far
    let near := nearFrame far
    let off := (((f.frame : Int) - ((s.clk.frame : Int) + near)) % 2 ^ 64).toNat
    let s2 := s1.setReg 0 (0x40418 + 64 * p) (BitVec.ofNat 64 off)
    let same := match s.dom with | some d => f.inDomain && f.domain == d.id | none => false
    let runs := s.units.any (fun u => !(s.running u).isEmpty)
    let s3 := if same && runs && f.op != s.clk.op then s2.raiseBreak 0 .planDrift else s2
    let trained := s.pstate p == psActive
    let s4 := if s.domainMode && trained then
        let s' := s3.modLport p (fun x => { x with markOff := some est })
        if est.natAbs > 560 then
          (s'.functions.foldl (fun (w : State) fn => w.status fn 0x30008 6) s').eventAll 0x0207 (.port p) s.clk.frame
            ((est % 2 ^ 64).toNat)
        else s'
      else s3
    .next (s4.frameExchange f)

/-! ### Lanes and folds (R252, R253) -/

/-- LANE_LOCK_LOSS: a neighbourhood or store lane fails, a global lane may regain lock for 20 µs (R252). -/
def execLaneLockLoss (p lane : Nat) (s : State) : Host.Outcome State Fault Refusal :=
  let st := s.pstate p
  if p < 24 ∧ lane < 4 ∧ psAlign ≤ st ∧ st ≠ psDown then
    if isGlobal p then
      .next (s.modLport p (fun x => if x.lostLock.any (fun q => q.1 == lane) || s.field 0 (pstat p) 15 12 / 2 ^ lane % 2 == 0 then x
        else { x with lostLock := x.lostLock ++ [(lane, s.clk.tick)] }))
    else .next (s.laneFail p lane)
  else .next s

/-- LANE_LOCK_REGAINED within 20 µs (R252). -/
def execLaneLockRegained (p lane : Nat) (s : State) : Host.Outcome State Fault Refusal :=
  .next (s.modLport p (fun x => { x with lostLock := x.lostLock.filter (fun q => q.1 != lane || decide (q.2 + 20 * ticksPerUs < s.clk.tick)) }))

/-- LANE_RELOCK_TIMEOUT: a global lane has not regained lock within 20 µs and fails (R252). -/
def execLaneRelockTimeout (p lane : Nat) (s : State) : Host.Outcome State Fault Refusal :=
  match (s.lport p).lostLock.find? (fun q => q.1 == lane) with
  | some q => .next ((s.advanceTo (q.2 + 20 * ticksPerUs)).laneFail p lane)
  | none => .next s

/-- LINK_FOLD: a port with a failed lane folds onto its siblings (R253). -/
def execLinkFold (p : Nat) (s : State) : Host.Outcome State Fault Refusal :=
  if p < 24 ∧ s.pstate p = psActive ∧ s.failedLanes p = 1 then .next (s.foldPort p) else .next s

/-- A crate of a folded port goes out on a sibling: one that R240 selects, or, for a broadcast copy and a fold-state message, the first
that is ACTIVE.  The FENCE_TALLY of a control crate stays with it in the control queue; a broadcast copy keeps its ingress credit (R263). -/
def State.resendOne (s : State) (p : Nat) (c : Crate) (control : Bool) : State :=
  let any := (s.siblings p).find? (fun q => s.pstate q == psActive)
  if c.isBcast then
    match any with
    | some q =>
      let moved := match findIdx? (fun (x : Nat × Nat × Nat × Crate) => x.2.2.1 == p && x.2.2.2 == c) s.link.copies 0 with
        | some (i, g) => setAt s.link.copies i (g.1, g.2.1, q, c)
        | none => s.link.copies
      { s with link := { s.link with copies := moved } }.enqueue q c
    | none => (s.discCrate c).copyLeft p c
  else if c.kind = 0x0A then
    match any with
    | some q => s.sendMessage q 0x05 1 (c.data.drop 4)
    | none => s
  else match s.routeOf c (s.storesOf (s.portPart p)) with
    | .port q => if control then s.modLport q (fun x => { x with ctl := x.ctl ++ [c] }) else s.enqueue q c
    | _ => s.unroutable c

/-- The crates of a folded port from a SEQ on go out on the ports that R240 now selects (R253). -/
def State.resendStranded (s : State) (p seq : Nat) : State :=
  let x := s.lport p
  let go := (x.stranded.filter (fun e => decide ((e.1 + 2 ^ 16 - seq) % 2 ^ 16 < 2 ^ 15))).map (·.2)
  (List.range go.length).foldl (fun (u : State) i =>
    match go[i]? with
    | some c => u.resendOne p c (c.kind == 0x08 && (match go[i + 1]? with | some d => d.kind == 0x09 | none => false))
    | none => u) (s.setLport p { x with stranded := [] })

/-- FOLD_STATE_RECEIVE on a sibling: the neighbour's folded port names the device's own, which folds too where it has not, and its
crates from the SEQ given are sent again (R253). -/
def execFoldStateReceive (q : Nat) (s : State) : Host.Outcome State Fault Refusal :=
  match s.takeMessage q 5 (fun _ => true) with
  | none => .next s
  | some (m, s1) =>
    match (s1.siblings q).find? (fun p => s1.field 0 (pnbr p) 61 61 == 1 && s1.field 0 (pnbr p) 20 16 == fieldAt m.body 0 1 % 32 &&
        s1.observed p == s1.observed q) with
    | some p =>
      let s2 := if s1.pstate p = psActive then s1.foldPort p else s1
      .next (if s2.pstate p = psFolded then s2.resendStranded p (fieldAt m.body 2 2) else s2)
    | none => .next s1

/-- Whether a function reaches the registers of a port (R265). -/
def State.seesPort (s : State) (fn p : Nat) : Bool :=
  s.functions.contains fn && (s.domainMode || s.nparts == 1 || s.portOwner p == some fn)

/-- LINK_RETRAIN: a write of LINK_PCTLn.RETRAIN, while no domain is active (R256). -/
def execLinkRetrain (fn p : Nat) (s : State) : Host.Outcome State Fault Refusal :=
  if p < 24 ∧ s.seesPort fn p = true ∧ s.domainMode = false then
    if s.pstate p = psQuarantine then .next (s.setPstate p psCheck 0)
    else if s.pstate p = psDown then .next (s.startTraining p)
    else .next s
  else .next s

end Sys2Proof.Machine
end

