-- ==== Sys2Proof/Machine/Fabric.lean ====
section
/-!
DEFINITION. Crates inside the device: ingress, injection, transfers, fences, delivery to tiles, fault messages (R56, R73, R123, R235,
R240 to R249, R263, R282, R429).
-/
namespace Sys2Proof.Machine

/-! ### Transfers (R235, R282) -/

/-- Crates of a transfer of `len` bytes. -/
def crateCount (len : Nat) : Nat := (len + 39) / 40

/-- The index of a data crate in a transfer: its SEQ counts from the transfer's base, modulo 2^16, nearest to the crates that have
come. -/
def Incoming.index (i : Incoming) (seq : Nat) : Nat :=
  let d := (seq + 2 ^ 16 - i.base) % 2 ^ 16
  let k := i.got / 2 ^ 16
  let cands := [d + 2 ^ 16 * (k - 1), d + 2 ^ 16 * k, d + 2 ^ 16 * (k + 1)]
  (cands.find? (fun v => decide (i.got ≤ v + 2 ^ 15) && decide (v < i.got + 2 ^ 15))).getD (d + 2 ^ 16 * k)

/-- The stream key of a data crate: dynamic, broadcast, store. -/
def Crate.streamKey (c : Crate) : Nat := (if c.kind = 0x0D then 2 else if c.isBcast then 1 else 0) * 2048 + c.stream

/-- Change one transfer: the first that a test finds. -/
def State.putIncoming (s : State) (i j : Incoming) : State :=
  match findIdx? (fun (x : Incoming) => x == i) s.link.incoming 0 with
  | some (n, _) => { s with link := { s.link with incoming := setAt s.link.incoming n j } }
  | none => s

/-- A hub write of transfer data into a context: checked under R208; a crate with P = 1 writes the marker (R56). -/
def State.transferWrite (s : State) (c a : Nat) (bs : List Byte) (poison : Bool) : State :=
  match s.checkExtent (some c) a bs.length with
  | .ok ad => s.cellarWrite ad bs poison
  | .extent => s.extentFault (c / 256) (some c) a false
  | .protect => s.extentFault (c / 256) (some c) a true

/-- Mark the transfers of a context that spans of a copy cover: the copy carries the poison of its source (R202). -/
def State.markSpans (s : State) (c dst : Nat) (spans : List (Nat × Nat)) : State :=
  spans.foldl (fun (u : State) p => u.transferWrite c (dst + p.1) (u.ctxRead c (dst + p.1) (p.2 - p.1)).1 true) s

/-- Data of a transfer arrives. -/
def State.transferData (s : State) (i : Incoming) (c : Crate) : State :=
  let n := i.index c.seq
  let bs := c.data.take (i.len - 40 * n)
  let j := { i with got := i.got + 1, poison := i.poison || c.poison }
  let whole := decide (crateCount i.len ≤ j.got)
  let drop := fun (u : State) => { u with link := { u.link with incoming := u.link.incoming.filter (fun x => x != j) } }
  if i.drop then
    let s1 := (s.discOther).putIncoming i j
    if whole then drop s1 else s1
  else if i.vault then s.putIncoming i { j with buf := writeBytes i.buf (i.addr + 40 * n) bs }
  else
    let s1 := (s.transferWrite i.ctx (i.addr + 40 * n) bs c.poison).putIncoming i j
    if whole ∧ i.load = none then drop s1 else s1

/-- A data crate: it goes to its transfer, or waits for the header (R235). -/
def State.dataCrate (s : State) (port : Nat) (c : Crate) : State :=
  match s.link.incoming.find? (fun i => i.stream == c.streamKey && decide (40 * i.index c.seq < i.len)) with
  | some i => s.transferData i c
  | none => { s with link := { s.link with early := s.link.early ++ [(port, c)] } }

/-- A crate of a dynamic or broadcast class leaves the ingress buffer of its port; a broadcast crate's credit returns with its last
copy (R243, R263). -/
def State.creditBack (s : State) (port : Nat) (c : Crate) : State :=
  if c.isBcast then
    match s.link.copies.find? (fun x => x.2.1 == port && x.2.2.1 == 24 && x.2.2.2 == c) with
    | some g => s.copiesGone [g]
    | none => s
  else if port < 24 ∧ 2 ≤ c.cls then s.modLport port (fun x => { x with owed := x.owed + 1 }) else s

/-- A transfer opens; data that waited for it follows. -/
def State.openTransfer (s : State) (i : Incoming) : State :=
  let s1 := { s with link := { s.link with incoming := s.link.incoming ++ [i] } }
  let mine := s1.link.early.filter (fun e => e.2.streamKey == i.stream && decide (40 * i.index e.2.seq < i.len))
  let s2 := { s1 with link := { s1.link with early := s1.link.early.filter (fun e => !(mine.contains e)) } }
  mine.foldl (fun (u : State) e => (u.dataCrate e.1 e.2).creditBack e.1 e.2) s2

/-- The broadcast-sourced shard that a BCAST_HDR names: context, load, shard position, attempt, vault destination (R282). -/
def State.bcastShard (s : State) (addr len tag : Nat) : Option (Nat × Nat × Nat × Bool) :=
  let all := s.ctxs.flatMap (fun q => q.2.loads.flatMap (fun l =>
    if l.tag = tag ∧ tag ≠ 0 then
      (List.range l.shards.length).filterMap (fun i => match l.shards[i]? with
        | some sh => if sh.entry.srcKind = 4 ∧ sh.entry.dest = addr ∧ sh.entry.bytes = len ∧ sh.verified = false ∧ sh.fetching = true ∧
            sh.attempt = 1 then
            some (q.1, l.desc.order, i, sh.entry.vaultDest) else none
        | none => none)
    else []))
  all.head?

/-- Local delivery of a crate that no fence holds. -/
def State.deliver (s : State) (port : Nat) (c : Crate) : State :=
  let b := c.data
  let blank : Incoming := { stream := c.streamKey, base := (c.seq + 1) % 2 ^ 16, addr := fieldAt b 0 8, len := fieldAt b 8 4, ctx := 0, got := 0,
                            load := none, vault := false, buf := [], poison := false, drop := false }
  if c.kind = 0x01 ∧ port < 24 ∧ s.portServes port c.region = false then s.unroutable c
  else if c.kind = 0x01 then { s with link := { s.link with inbox := s.link.inbox ++ [(port, c)] } }
  else if c.kind = 0x02 then
    if blank.len = 0 then s.discOther
    else s.openTransfer { blank with ctx := fieldAt b 12 4 % 2 ^ 11 }
  else if c.kind = 0x04 then
    match s.bcastShard blank.addr blank.len (fieldAt b 12 4) with
    | some (x, l, i, v) => s.openTransfer { blank with ctx := x, load := some (l, i, 1), vault := v }
    | none => (s.discOther).openTransfer { blank with drop := true }
  else if c.kind = 0x03 ∨ c.kind = 0x05 ∨ c.kind = 0x0D then s.dataCrate port c
  else if c.kind = 0x09 then { s with link := { s.link with faultIn := s.link.faultIn ++ [(port, c)] } }
  else s.discOther

/-- A data crate whose header has not come stays in the ingress buffer: its credit does not return yet. -/
def State.waitsForHeader (s : State) (c : Crate) : Bool :=
  (c.kind == 0x03 || c.kind == 0x05 || c.kind == 0x0D) &&
    !(s.link.incoming.any (fun i => i.stream == c.streamKey && decide (40 * i.index c.seq < i.len)))

/-! ### Ingress and injection (R240, R245, R247) -/

/-- Remove the front crate of a port's ingress. -/
def State.popIngress (s : State) (p : Nat) : State := s.modLport p (fun x => { x with ingress := x.ingress.drop 1 })

/-- Hold an F crate (R247). -/
def State.holdCrate (s : State) (p source : Nat) (c : Crate) : State :=
  { s with link := { s.link with held := s.link.held ++ [⟨c, p, dieOfPort p, source, s.clk.tick, false, false⟩] } }

/-- A crate at a port's ingress whose destination is this device (R245); the boot ROM's own fetch needs no stream entry (R369; log entry 72). -/
def State.ingressHere (s : State) (p : Nat) (c : Crate) : State :=
  let b := c.data
  if s.boot.link = some p ∧ c.kind = 0x0D then ((s.popIngress p).dataCrate p c).creditBack p c
  else if c.kind = 0x08 then
    let s1 := s.popIngress p
    { s1 with link := { s1.link with fences := s1.link.fences ++ [(fieldAt b 8 2, fieldAt b 4 2, fieldAt b 6 2, fieldAt b 0 4)] } }
  else if c.tallied then
    let e := s.reg 0 (0x4A000 + 8 * c.stream)
    if getBits e 16 16 = 0 then ((s.popIngress p).discUnbound).creditBack p c
    else if s.blocked p then s
    else
      let src := getBits e 15 0
      let d := dieOfPort p
      let s1 := s.popIngress p
      let s2 := { s1 with link := { s1.link with received := mset 0 s1.link.received (d * 65536 + src) ((s1.recvTally d src + 1) % 2 ^ 32) } }
      if c.fence then (s2.holdCrate p src c).creditBack p c
      else if s2.waitsForHeader c then s2.deliver p c
      else (s2.deliver p c).creditBack p c
  else if c.kind = 0x09 ∧ c.fence = true then
    if s.blocked p then s else (s.popIngress p).holdCrate p (fieldAt b 24 2) c
  else (s.popIngress p).deliver p c

/-- Whether a crate in transit may pass from one port to another: a plan or control crate that has to change port dies crosses the mesh
along row STREAM mod 64, which a closed link or edge port of a partition of one die does not let it (R23, R28, R241; log entry 62). -/
def State.crossesOpen (s : State) (p q : Nat) (c : Crate) : Bool :=
  dieOfPort p == dieOfPort q || decide (2 ≤ c.cls) || s.domainMode ||
    (let row := c.stream % 64
     [p, q].all (fun e => (List.range 8).all (fun col => s.portServes e (row / 8 * 8 + col))))

/-- The crate at the front of a port's ingress is routed; a dynamic or broadcast crate whose egress queue is full waits (R240, R243, R245,
R263). -/
def State.ingressPort (s : State) (p : Nat) : State :=
  match (s.lport p).ingress with
  | [] => s
  | c :: _ =>
    if c.isBcast then
      if (s.groupPorts c).any s.egressFull then s
      else
      let (here, s1) := (s.popIngress p).broadcast c (some p) (s.waitsForHeader c)
      if here then s1.deliver p c else s1
    else match s.routeOf c (s.storesOf (s.portPart p)) with
      | .here => s.ingressHere p c
      | .port q =>
        if decide (2 ≤ c.cls) && s.crossesOpen p q c && s.egressFull q then s
        else if s.crossesOpen p q c then ((s.popIngress p).enqueue q c).creditBack p c else ((s.popIngress p).unroutable c).creditBack p c
      | .none => ((s.popIngress p).unroutable c).creditBack p c

/-- The next crate that a tile's XCRATE sends enters the fabric: routed at its injection (R122, R240), with P = 1 if the tile was
poisoned (R56). -/
def State.injectTile (s : State) (k : Nat) : State :=
  let t := s.tile k
  match t.sends.find? (fun x => match x.kind with | .crate _ => true | _ => false) with
  | some x =>
    match x.kind with
    | .crate h =>
      if x.data.length < x.len then s
      else
        let c : Crate := ⟨if x.poison then h ||| BitVec.ofNat 64 (2 ^ 32) else h, x.data⟩
        let s1 := s.modTile k (fun t => { t with sends := t.sends.filter (fun y => y.id != x.id) })
        let take := fun (w : State) => if c.kind = 0 then w else if kindClass c.kind = some c.cls then w.deliver 24 c else w.discOther
        if c.isBcast then
          let (here, s2) := s1.broadcast c none false
          if here then take s2 else s2
        else match s1.routeOf c (s1.storesOf (s.partOfRegion (regionOfTile k))) with
          | .here => take s1
          | .port p =>
            if s1.portServes p (regionOfTile k) then (if decide (2 ≤ c.cls) && s.egressFull p then s else s1.handOver p c) else s1.unroutable c
          | .none => s1.unroutable c
    | _ => s
  | none => s

/-- CRATE_INGRESS: a crate enters the device at a port, or from a tile (R240, R245, R263). -/
def execCrateIngress (src : CrateSource) (s : State) : Host.Outcome State Fault Refusal :=
  match src with
  | .port p => .next (if p < 24 then s.ingressPort p else s)
  | .tile k => .next (s.injectTile k)

/-- The tile that a plan crate is for. -/
def Crate.tile (c : Crate) : Nat := (c.region / 8 * 8 + c.tileIn / 8) * 64 + c.region % 8 * 8 + c.tileIn % 8

/-- The landing that a crate from a port enters a gated region by; a tile's own crate takes none. -/
def crateLanding (port : Nat) (c : Crate) : Option Nat := if port < 24 then edgeLanding c.tile (dieOfPort port == 0) else none

/-- Whether the next step of a plan crate's way is free: its region is not there, or runs, or its landing has room; the regions between
the port die and it run (R28, R164, R171). -/
def State.crateMoves (s : State) (port : Nat) (c : Crate) : Bool :=
  !s.enabled c.region ||
  ((24 ≤ port || s.passes (edgeRoute c.tile (dieOfPort port == 0) (dieOfPort port == 1)) c.region) &&
    (s.regionRuns c.region || (match crateLanding port c with
      | some key => decide ((s.landing key).length < landingSize)
      | none => false)))

/-- CRATE_RECEIVE: the first plan crate whose way is free reaches its tile, and is written there through the lowest-numbered binding of its
stream; where the region is gated it goes into the landing before it (R73, R119, R123, R171, R245). -/
def execCrateReceive (s : State) : Host.Outcome State Fault Refusal :=
  match findIdx? (fun (q : Nat × Crate) => s.crateMoves q.1 q.2) s.link.inbox 0 with
  | none => .next s
  | some (n, (port, c)) =>
    let s1 := { s with link := { s.link with inbox := s.link.inbox.eraseIdx n } }
    let cs : List Chunk := [⟨0, c.data, c.poison, .crate c.stream c.seq⟩]
    if !s.enabled c.region then .next s1.discUnbound
    else if s.regionRuns c.region then .next (s1.arrive c.tile cs)
    else match crateLanding port c with
      | some key => .next (s1.land key c.tile cs).2
      | none => .next s

/-! ### Fences (R247, R248) -/

/-- The FENCE_TALLY of a held crate. -/
def State.fenceOf (s : State) (h : HeldCrate) : Option Nat :=
  (s.link.fences.find? (fun f => f.1 == h.source && f.2.1 == h.crate.stream && f.2.2.1 == h.crate.seq)).map (·.2.2.2)

/-- Crates of a source that its receive tallies count and that are not written yet, but for one that is held itself: those held, those
on their way to their tiles, and data that waits for its header. -/
def State.unwritten (s : State) (h : HeldCrate) : Nat :=
  let of := fun (stream : Nat) => getBits (s.reg 0 (0x4A000 + 8 * stream)) 15 0 == h.source
  let from_ := fun (c : Crate) => c.tallied && of c.stream
  let way := fun (c : Chunk) => match c.done with | .crate stream _ => of stream | _ => false
  (s.link.held.filter (fun x => x.source == h.source && x.crate.tallied)).length - (if h.crate.tallied then 1 else 0) +
    (s.link.inbox.filter (fun x => from_ x.2)).length + (s.link.early.filter (fun x => from_ x.2)).length +
    (s.clk.landings.flatMap (fun l => l.2.filter (fun e => way e.chunk))).length +
    (s.tiles.flatMap (fun p => p.2.recv.filter way)).length

/-- Whether a held F crate may be written: its tally has come and the receive tallies of its source have reached it, modulo 2^32, by
crates that have themselves been written (R246, R247).  One that an epoch change left waits for nothing more (log entry 59). -/
def State.fenceMet (s : State) (h : HeldCrate) : Bool :=
  h.past || match s.fenceOf h with
  | some c => decide (((s.recvTally 0 h.source + s.recvTally 1 h.source) + 2 ^ 33 - c - s.unwritten h) % 2 ^ 32 < 2 ^ 31)
  | none => false

/-- FENCE_RELEASE of the n-th held crate (R247). -/
def execFenceRelease (n : Nat) (s : State) : Host.Outcome State Fault Refusal :=
  match s.link.held[n]? with
  | some h =>
    if s.fenceMet h then
      let fences := match findIdx? (fun f => f.1 == h.source && f.2.1 == h.crate.stream && f.2.2.1 == h.crate.seq) s.link.fences 0 with
        | some (i, _) => s.link.fences.eraseIdx i
        | none => s.link.fences
      let s1 := { s with link := { s.link with held := s.link.held.eraseIdx n, fences := fences } }
      .next (s1.deliver h.port h.crate)
    else .next s
  | none => .next s

/-- FENCE_STALL of the n-th held crate: held for more than 1 ms (R248). -/
def execFenceStall (n : Nat) (s : State) : Host.Outcome State Fault Refusal :=
  match s.link.held[n]? with
  | some h =>
    if h.stalled then .next s
    else
      let s1 := s.advanceTo (h.at_ + ticksPerMs + 1)
      let s2 := { s1 with link := { s1.link with held := setAt s1.link.held n { h with stalled := true } } }
      .next ((s2.linkStatus 4).event (s.portFns h.port) 0x0405 (.port h.port) h.source (h.crate.stream * 65536 + h.crate.seq))
  | none => .next s

/-! ### Fault messages (R427 to R429) -/

/-- FAULT_MESSAGE_RECEIVE: a message of another domain, of a reserved subtype or seen before is discarded; a new one is forwarded,
and the device enters recovery at its next slot boundary. -/
def execFaultMessageReceive (s : State) : Host.Outcome State Fault Refusal :=
  match s.link.faultIn with
  | [] => .next s
  | (p, c) :: rest =>
    let b := c.data
    let s1 := { s with link := { s.link with faultIn := rest } }
    let key := (fieldAt b 2 2, fieldAt b 4 4)
    match s.dom with
    | some d =>
      if fieldAt b 0 1 ≠ 1 ∨ fieldAt b 8 3 ≠ d.id ∨ s.faults.seen.contains key = true then .next s1
      else
        let s2 := { s1.countFault with faults := { s1.faults with seen := (key :: s1.faults.seen).take 64 } }
        let s3 := s2.sendFault (fieldAt b 1 1) key.1 key.2 (fieldAt b 11 1 + 1) (fieldAt b 16 8) (some p)
        if d.recovery ∨ s.faults.told.isSome = true then .next s3
        else if (s3.unit 0).stopped ∨ (s3.running 0).isEmpty = true then .next (s3.enterRecovery (s3.ctx d.ctx).failing.1 (fieldAt b 1 1) key.1)
        else
          let s4 := { s3 with faults := { s3.faults with told := some (fieldAt b 1 1, key.1) } }
          .next ((s4.setUnit 0 { s4.unit 0 with stopAsked := true }).failSteps 0 (fieldAt b 1 1))
    | none => .next s1

/-! ### Requests to storage nodes (R235, R278) -/

/-- A read of a storage object by STORE_REQs of at most 2^31 bytes; each takes the next transfer tag and opens a transfer. -/
def State.storeRead (s : State) (c dev : Nat) (object : List Byte) (off addr len : Nat) (load : Nat × Nat × Nat) (vault : Bool) : State :=
  let n := (len + 2 ^ 31 - 1) / 2 ^ 31
  (List.range n).foldl (fun (u : State) k =>
    let tag := u.link.tags % 2048
    let o := 2 ^ 31 * k
    let l := min (2 ^ 31) (len - o)
    let hdr := mkCrate dev 0 0 2 0x0C tag 0 false
      (leBytes 8 (off + o) ++ leBytes 4 l ++ leBytes 4 tag ++ (object ++ List.replicate 16 0).take 16 ++ leBytes 2 u.devId ++ leBytes 6 0)
    let u1 := { u with link := { u.link with tags := u.link.tags + 1 } }
    let u2 := match u1.routeOf hdr (u1.storesOf (c / 256)) with
      | .port p => u1.handOver p hdr
      | _ => u1.unroutable hdr
    u2.openTransfer { stream := 4096 + tag, base := 0, addr := addr + o, len := l, ctx := c, got := 0, load := some load, vault := vault, buf := [],
                      poison := false, drop := false }) s

/-- A broadcast of data from this device as the root of a group (R263, R282). -/
def State.bcastSend (s : State) (group dest tag : Nat) (data : List Byte) : State :=
  let stream := s.link.tags % 2048
  let hdr := mkCrate group 0 0 3 0x04 stream 0 false (leBytes 8 dest ++ leBytes 4 data.length ++ leBytes 4 tag ++ leBytes 16 0 ++ leBytes 2 stream ++ leBytes 6 0)
  let s0 := { s with link := { s.link with tags := s.link.tags + 1 } }
  let s1 := (s0.broadcast hdr none false).2
  (List.range (crateCount data.length)).foldl (fun (u : State) i =>
    let bs := (data.drop (40 * i)).take 40
    (u.broadcast (mkCrate group 0 0 3 0x05 stream ((1 + i) % 2 ^ 16) false (bs ++ List.replicate (40 - bs.length) 0)) none false).2) s1

end Sys2Proof.Machine
end

