-- ==== Sys2Proof/Machine/VaultOps.lean ====
section
/-!
DEFINITION. The vault: decoders, page encryption, failed pages (R219 to R222, R278).
-/
namespace Sys2Proof.Machine

/-- Where a vault offset lies: the decoder, the offset from its base, its HDM target, its size and its port. -/
structure VaultPlace where
  dec : Nat
  rel : Nat
  target : Nat
  size : Nat
  port : Nat
  deriving DecidableEq, Repr

/-- The decoder of a partition that holds a vault offset (R220). -/
def State.vaultPlace (s : State) (part v : Nat) : Option VaultPlace :=
  ((List.range 16).map (fun d =>
    let cfg := s.reg 0 (0x50C00 + 16 * d)
    let base := getBits cfg 13 0 * 2 ^ 30
    let size := getBits cfg 28 14 * 2 ^ 30
    if getBits cfg 33 33 = 1 ∧ (getBits cfg 31 29 = part ∨ s.domainMode = true) ∧ base ≤ v ∧ v < base + size then
      some ({ dec := d, rel := v - base, target := getBits (s.reg 0 (0x50C08 + 16 * d)) 63 12 * 4096, size := size,
              port := getBits cfg 32 32 } : VaultPlace)
    else none)).foldl (fun a b => match a with | some x => some x | none => b) none

/-- A port that vault requests leave on: the decoder's, or the other one while that port's link is down (R220). -/
def State.vaultPort (s : State) (p : VaultPlace) : Nat :=
  if s.field 0 (0x10008 + 8 * p.port) 0 0 = 1 then p.port else 1 - p.port

/-- A span of vault offsets inside one decoder of a partition. -/
def State.vaultSpan (s : State) (part v n : Nat) : Bool :=
  match s.vaultPlace part v with
  | some p => decide (p.rel + n ≤ p.size)
  | none => false

/-- The bytes of a key slot (R214): bits of the entropy source, or zeros where the slot is erased. -/
def KeySlot.bytes (k : KeySlot) : List Byte := beBytes 96 (match k.keys with | some n => Config.entropy n | none => 0)

/-- A key slot's AES-256-GCM key (R214). -/
def KeySlot.gcmKey (k : KeySlot) : List Byte := k.bytes.drop 64

/-- A key slot's AES-256-XTS key pair (R214). -/
def KeySlot.xtsPair (k : KeySlot) : List Byte := k.bytes.take 64

/-- An AES-256-XTS key pair by the draw that gave it. -/
def xtsOf (keys : Option Nat) : List Byte := ({ keys := keys } : KeySlot).xtsPair

/-- The context whose extent holds a cellar page, zeroed for it. -/
def State.pageOwner (s : State) (n : Nat) : Option Nat :=
  ((s.ctxs.filter (fun p => p.2.phase != .free && p.2.phase != .creating && decide (p.2.base ≤ 4096 * n) && decide (4096 * n < p.2.base + p.2.params.extentBytes))).map (·.1)).head?

/-- The 4,096 bytes that a cellar page's site holds, at the page it is placed on or at its remap page (R204, R215): inside an extent the
AES-256-XTS encryption of what its context reads there, the data unit being the page; where a context that has ended has left its ciphertext,
that; elsewhere the raw bytes. -/
def State.storedPage (s : State) (n : Nat) : List Byte :=
  let plain := readBytes s.mem.cellar (4096 * n) 4096
  match s.pageOwner n, s.mem.stale.find? (fun o => decide (o.base ≤ 4096 * n) && decide (4096 * n < o.base + o.bytes)) with
  | some c, _ => xtsEncrypt (mget {} s.mem.keys (s.ctx c).keySlot).xtsPair n plain
  | none, some o => xtsEncrypt (xtsOf o.keys) n plain
  | none, none => plain

/-- What a 64-bit device address names (R193): a byte of the cellar, of a tile's larder, or of the vault, by its address there. -/
inductive DevAddr where
  | cellar (a : Nat)
  | larder (tile a : Nat)
  | vault (v : Nat)
  | unpopulated
  deriving DecidableEq, Repr

/-- The device address map (R193). -/
def State.devAddr (s : State) (a : Nat) : DevAddr :=
  if a < 2 ^ 41 then (if a < s.cellarBytes then .cellar a else .unpopulated)
  else if 2 ^ 44 ≤ a ∧ a < 2 ^ 44 + 2 ^ 34 then
    let o := a - 2 ^ 44
    if o % 2 ^ 22 < 3 * 2 ^ 20 then .larder (o / 2 ^ 22) (o % 2 ^ 22) else .unpopulated
  else if 2 ^ 48 ≤ a ∧ a < 2 ^ 48 + 2 ^ 44 then
    let v := a - 2 ^ 48
    if (List.range 16).any (fun d =>
        let cfg := s.reg 0 (0x50C00 + 16 * d)
        getBits cfg 33 33 == 1 && decide (getBits cfg 13 0 * 2 ^ 30 ≤ v) && decide (v < (getBits cfg 13 0 + getBits cfg 28 14) * 2 ^ 30)) then .vault v
    else .unpopulated
  else .unpopulated

/-- The IV of a vault page (R221). -/
def vaultIv (page dec wcount : Nat) : List Byte := beBytes 12 (page % 2 ^ 32 * 2 ^ 64 + dec * 2 ^ 60 + wcount % 2 ^ 60)

/-- Read a page: the plaintext if its tag verifies. -/
def openVaultPage (key : List Byte) (p : VaultPlace) (v : Nat) (data meta_ : List Byte) : Option (List Byte) :=
  gcmDecrypt key (vaultIv (p.rel / 4096) p.dec (fieldAt meta_ 16 8)) (leBytes 8 v) data (meta_.take 16)

/-- Write one page under a context's key (R221): WCOUNT counts it. -/
def State.writeVaultPage (s : State) (c v : Nat) (bs : List Byte) : State :=
  match s.vaultPlace (c / 256) v with
  | none => s
  | some p =>
    let slot := (s.ctx c).keySlot
    let k := mget {} s.mem.keys slot
    let w := k.wcount + 1
    let (ct, tag) := gcmEncrypt k.gcmKey (vaultIv (p.rel / 4096) p.dec w) (leBytes 8 v) bs
    let s1 := { s with mem := { s.mem with keys := mset {} s.mem.keys slot { k with wcount := w } } }
    let port := s.vaultPort p
    (s1.emit (.vaultWrite port (p.target + p.rel) ct)).emit
      (.vaultWrite port (p.target + p.size + 32 * (p.rel / 4096)) (tag ++ leBytes 8 w ++ leBytes 8 0))

/-- A failed page of `n` bytes (R222): its cellar destination, if it has one, takes the marker, the status bit is set, and it is counted and
reported.  An offset that no valid decoder of the partition holds is a protection fault first (R220; log entry 71). -/
def State.failPage (s : State) (c : Nat) (dest : Option Nat) (v n : Nat) : State :=
  let u := c / 256
  let place := s.vaultPlace u v
  let s0 := if place.isNone then s.status u 0x50030 1 else s
  let s1 := match dest with
    | some d => (match s0.checkExtent (some c) d n with
      | .ok a => s0.cellarWrite a (readBytes s0.mem.cellar a n) true
      | _ => s0)
    | none => s0
  ((s1.status u 0x50030 7).bump u 0x50040 31).event [u] 0x0307 .device ((place.map (·.dec)).getD 16) v

/-- A failed 4 KiB page whose destination is a context address (R222). -/
def State.failVaultPage (s : State) (c dest v : Nat) : State := s.failPage c (some dest) v 4096

end Sys2Proof.Machine
end

