-- ==== Sys2Proof/Machine/LoadOps.lean ====
section
/-!
DEFINITION. Manifests, load tables, staging lists, shard fetches and the endings of loads (R269, R271, R272, R276 to R287, R289, R291 to
R293).
-/
namespace Sys2Proof.Machine

/-! ### Manifests (R276, R277) -/

/-- The length that a manifest's header gives. -/
def manBytes (m : List Byte) : Nat := fieldAt m 8 8

/-- Whether a manifest keeps R276. -/
def manOk (m : List Byte) : Bool :=
  let f := fieldAt m
  let n := f 0x10 4
  let so := f 0x18 8
  let ko := f 0x20 8
  let go := f 0x28 8
  m.take 4 == [0x4C#8, 0x4D, 0x57, 0x4D] && f 4 2 == 1 && zeroAt m 6 2 && f 8 8 == m.length && m.length % 16 == 0 &&
  decide (m.length ≤ 96 * 2 ^ 20) && decide (1 ≤ n) && decide (n ≤ 2 ^ 20) && zeroAt m 0x14 4 && so % 16 == 0 && zeroAt m 0x40 64 &&
  decide (so + 80 * n ≤ m.length) && decide (ko + 516 ≤ m.length) && go + 512 == m.length &&
  !anyMeet [(0, 128), (so, 80 * n), (ko, 516), (go, 512)] &&
  (List.range n).all (fun i => let e := so + 80 * i; decide (1 ≤ f e 8) && decide (f e 8 ≤ 2 ^ 36) && zeroAt m (e + 8) 8)

/-- The length and digest of shard `i`. -/
def manShard (m : List Byte) (i : Nat) : Nat × List Byte :=
  let e := fieldAt m 0x18 8 + 80 * i
  (fieldAt m e 8, (m.drop (e + 16)).take 64)

/-- The bytes that the signature covers, and the manifest digest. -/
def manBody (m : List Byte) : List Byte := m.take (fieldAt m 0x28 8)
def manDigest (m : List Byte) : List Byte := sha512 (manBody m)

/-- Whether a manifest's key and signature are accepted (R277). -/
def manSigned (m hash : List Byte) : Bool :=
  let key := (m.drop (fieldAt m 0x20 8)).take 516
  sha512 key == hash && rsaVerify (key.take 512) (key.drop 512) (m.drop (fieldAt m 0x28 8)) (manBody m)

/-! ### Load tables and staging lists (R278, R279, R283) -/

/-- A load table's entry count; 0 where the header's is out of range. -/
def tableCount (t : List Byte) : Nat := let n := fieldAt t 0 4; if n ≤ 2 ^ 20 then n else 0

/-- Whether a load table's header keeps R278. -/
def tableHeaderOk (t : List Byte) : Bool :=
  decide (1 ≤ tableCount t) && decide (fieldAt t 4 4 ≤ 65536) && zeroAt t 0x30 16

/-- The entries as they stand in the table. -/
def rawEntries (t : List Byte) : List (List Byte) := (List.range (tableCount t)).map (fun i => hostRead (t.drop (64 + 64 * i)) 64)

def rawRoot (e : List Byte) : Bool := fieldAt e 7 1 % 2 == 1
def rawBcast (e : List Byte) : Bool := fieldAt e 5 1 == 4
def rawStore (e : List Byte) : Bool := fieldAt e 5 1 == 2 || fieldAt e 6 1 == 2

/-- Read one entry beside the manifest. -/
def readEntry (m e : List Byte) : LoadEntry :=
  let f := fieldAt e
  let (n, dg) := manShard m (f 0 4)
  { shard := f 0 4, vaultDest := f 4 1 == 1, srcKind := f 5 1, altKind := f 6 1, root := rawRoot e, dest := f 8 8, src := f 0x10 8,
    object := (e.drop 0x18).take 16, alt := f 0x28 8, bytes := n, digest := dg }

/-- Whether one entry keeps R278 and names a shard of the manifest. -/
def entryOk (count : Nat) (e : List Byte) : Bool :=
  let f := fieldAt e
  decide (f 0 4 < count) && decide (f 4 1 ≤ 1) && decide (1 ≤ f 5 1) && decide (f 5 1 ≤ 4) && decide (f 6 1 ≤ 3) && decide (f 7 1 < 2) &&
  zeroAt e 0x30 16 && f 8 8 % (if f 4 1 = 0 then 64 else 4096) == 0

/-- The length of an entry's destination: a vault destination is written in whole pages. -/
def LoadEntry.span (e : LoadEntry) : Nat := if e.vaultDest then roundUp e.bytes 4096 else e.bytes

/-- Whether the staging list and its presence words at `base` keep R223 and R283. -/
def listOk (p : CtxParams) (entries : List LoadEntry) (base : Nat) (list : List Byte) (count : Nat) : Bool :=
  (count == 0 || p.inFree base (40 * count)) &&
  (List.range count).all (fun i =>
    let b := hostRead (list.drop (32 * i)) 32
    let f := fieldAt b
    let pages := f 16 4
    f 0 8 % 4096 == 0 && f 8 8 % 4096 == 0 && decide (1 ≤ pages) && decide (pages ≤ 2 ^ 20) && decide (1 ≤ f 24 4) && decide (f 24 4 ≤ 2 ^ 20) &&
    decide (f 28 1 < 2) && zeroAt b 29 3 && p.inFree (f 8 8) (4096 * pages) &&
    (entries.filter (fun e => e.vaultDest && e.dest == f 0 8 && (e.bytes + 4095) / 4096 == pages)).length == 1)

/-- What a load's manifest and table say. -/
structure LoadInfo where
  mdigest : List Byte
  count : Nat
  entries : List LoadEntry
  manBase : Nat
  listBase : Nat
  listCount : Nat
  stageBase : Nat
  stageBytes : Nat
  /-- SHARD_BYTES of every shard of the manifest -/
  lens : List Nat
  /-- what is copied into the context: address and bytes -/
  copies : List (Nat × List Byte)
  deriving DecidableEq, Repr

/-- The checks of a manifest and a load table, steps 1 to 4 of R279, in their order, with the status and result value of the first failure;
of the reasons that the table gives, the lowest code is reported, an entry whose SHARD the manifest does not have giving MANIFEST alone (R271,
R277, R279, R286).  A weight load checks its destinations; for a swap
the destinations are those of the current generation. -/
def State.prepareLoad (s : State) (c : Nat) (manifest table : List Byte) (swap : Bool) : Except (Nat × Nat) LoadInfo :=
  let p := (s.ctx c).params
  let n := manBytes manifest
  let t := hostRead table (64 + 64 * tableCount table)
  let manBase := fieldAt t 0x18 8
  let tableAt := manBase + roundUp n 4096
  let lc := if swap then 0 else fieldAt t 4 4
  let lb := fieldAt t 0x10 8
  if manBase % 4096 ≠ 0 ∨ p.inFree manBase n = false then .error (stBad, rsGeometry)
  else if n > 96 * 2 ^ 20 then .error (stBad, rsManifest)
  else
    let m := hostRead manifest n
    if manOk m = false then .error (stBad, rsManifest)
    else if manSigned m p.pubHash = false then .error (stSignature, 0)
    else
      let raw := rawEntries t
      let cnt := fieldAt m 0x10 4
      let es := raw.map (readEntry m)
      let ids := es.map (·.shard)
      let known := es.filter (fun e => decide (e.shard < cnt))
      let cel := known.filter (fun e => !e.vaultDest)
      let vlt := known.filter (·.vaultDest)
      let own := [(manBase, n), (tableAt, t.length)] ++ cel.map (fun e => (e.dest, e.bytes))
      let areas := (if lc = 0 then [] else [(lb, 40 * lc)]) ++ own
      let bad := reasons [
        (own.any (fun a => !p.inFree a.1 a.2) || anyMeet areas || anyMeet (vlt.map (fun e => (e.dest, e.span))) ||
          vlt.any (fun e => !s.vaultSpan (c / 256) e.dest e.span) || fieldAt t 0x10 8 % 64 != 0 || (swap && fieldAt t 0x20 8 % 4096 != 0),
          rsGeometry),
        (!tableHeaderOk t || !raw.all (entryOk cnt) || (nub ids).length != ids.length, rsManifest)]
      match lowest bad with
      | some r => .error (stBad, r)
      | none => .ok { mdigest := manDigest m, count := cnt, entries := es, manBase := manBase, listBase := lb, listCount := lc,
                      stageBase := fieldAt t 0x20 8, stageBytes := fieldAt t 0x28 8,
                      lens := (List.range cnt).map (fun i => (manShard m i).1), copies := [(manBase, m), (tableAt, t)] }

/-- Whether LOAD_TAG and GROUP break R282. -/
def State.tagBad (s : State) (needs root : Bool) (tag group : Nat) : Bool :=
  if needs then
    s.nparts != 1 || tag == 0 || s.ctxs.any (fun p => p.2.loads.any (fun l => l.tag == tag)) ||
      (root && s.field 0 (0x42000 + 8 * group) 25 25 == 0)
  else tag != 0

/-! ### Loads in progress (R280) -/

def State.putLoad (s : State) (c order : Nat) (f : Load → Load) : State :=
  s.modCtx c (fun x => { x with loads := x.loads.map (fun l => if l.desc.order = order then f l else l) })

def State.findLoad (s : State) (c order : Nat) : Option Load := (s.ctx c).loads.find? (fun l => l.desc.order == order)

/-- Drop a load and the transfers on their way to it. -/
def State.dropLoad (s : State) (c order : Nat) : State :=
  let s1 := s.modCtx c (fun x => { x with loads := x.loads.filter (fun l => l.desc.order != order) })
  { s1 with link := { s1.link with incoming := s1.link.incoming.map (fun i =>
    match i.load with | some (o, _, _) => if o = order then { i with load := none, drop := true } else i | none => i) } }

/-- A new shard of a load. -/
def newShard (e : LoadEntry) : ShardState := { entry := e, attempt := 1, fetching := false, digestFailed := false, verified := false }

/-- Whether the next attempt of a shard reads its alternate. -/
def ShardState.onAlt (sh : ShardState) : Bool := decide (1 < sh.attempt) && sh.entry.altKind != 0

/-- The source kind of the attempt. -/
def ShardState.kind (sh : ShardState) : Nat := if sh.onAlt then sh.entry.altKind else sh.entry.srcKind

/-- A broadcast-sourced attempt waits for the root and takes no part in the 16 fetches. -/
def ShardState.passive (sh : ShardState) : Bool := sh.kind == 4

def modShard (l : Load) (i : Nat) (f : ShardState → ShardState) : Load :=
  match l.shards[i]? with
  | some sh => { l with shards := setAt l.shards i (f sh) }
  | none => l

/-- Start the next attempt of a shard: a store source is asked for its bytes. -/
def State.fetchShard (s : State) (c order i : Nat) : State :=
  match s.findLoad c order with
  | none => s
  | some l =>
    match l.shards[i]? with
    | none => s
    | some sh =>
      let s1 := s.putLoad c order (fun l => modShard l i (fun sh => { sh with fetching := true }))
      if sh.kind = 2 then
        s1.storeRead c (if sh.onAlt then l.altDev else l.dev) sh.entry.object sh.entry.src sh.entry.dest sh.entry.bytes (order, i, sh.attempt)
          sh.entry.vaultDest
      else s1

/-- Whether a load's fetches have started: those of a direct swap wait for the barrier (R287). -/
def State.loadRuns (s : State) (c : Nat) (l : Load) : Bool :=
  match l.kind with
  | .direct => (match (s.ctx c).swap with | some w => w.started | none => false)
  | _ => true

/-- Start fetches in table order while fewer than 16 run (R280). -/
def State.pumpLoad (s : State) (c order : Nat) : State :=
  match s.findLoad c order with
  | none => s
  | some l => if !s.loadRuns c l then s else (List.range l.shards.length).foldl (fun (u : State) i =>
      match u.findLoad c order with
      | none => u
      | some l' =>
        match l'.shards[i]? with
        | some sh =>
          let busy := (l'.shards.filter (fun x => x.fetching && !x.verified && !x.passive)).length
          if sh.verified || sh.fetching then u
          else if sh.passive || decide (busy < 16) then u.fetchShard c order i
          else u
        | none => u) s

/-- The state of a context follows what it holds (R272). -/
def State.settlePhase (s : State) (c : Nat) : State :=
  s.modCtx c (fun x =>
    let whole := x.weights.isSome && x.plan.isSome
    match x.phase with
    | .empty => if whole then { x with phase := .ready } else x
    | .ready => if whole then x else { x with phase := .empty }
    | _ => x)

/-! ### Swaps (R286, R287, R289) -/

/-- Insert into a list of entries by shard index. -/
def insertShard (e : LoadEntry) : List LoadEntry → List LoadEntry
  | [] => [e]
  | x :: xs => if e.shard < x.shard then e :: x :: xs else x :: insertShard e xs

def byShard (l : List LoadEntry) : List LoadEntry := l.foldl (fun a e => insertShard e a) []

/-- The staging addresses of shards in their order, each a multiple of 4,096, and the end. -/
def placeStage (base : Nat) : List LoadEntry → List (LoadEntry × Nat) × Nat
  | [] => ([], base)
  | e :: es =>
    let b := roundUp base 4096
    let (r, z) := placeStage (b + e.bytes) es
    ((e, b) :: r, z)

/-- Whether a swap waits for its barrier: one that has executed while its context runs (R287); one executed in domain recovery, where the
context counts as READY, does not (R273; log entry 25). -/
def State.swapWaits (s : State) (c : Nat) (w : Swap) : Bool :=
  (s.ctx c).phase == .running && (s.runsSteps c || w.barrierStep != 0)

/-- The barrier starts: the next generation is assigned, and a direct swap begins to fetch (R287). -/
def State.swapStart (s : State) (c : Nat) : State :=
  match (s.ctx c).swap with
  | some w =>
    if w.started then s
    else
      let s1 := s.modCtx c (fun x => { x with swap := some { w with started := true, gen := x.lastGen + 1, voids := if s.runsSteps c then some (w.voids.getD 0) else w.voids } })
      match w.direct, s1.findLoad c w.desc.order with
      | true, some l =>
        if l.shards.isEmpty then s1.dropLoad c w.desc.order
        else s1.pumpLoad c w.desc.order
      | _, _ => s1
  | none => s

/-- The staged shards are copied to their destinations in ascending shard index; `faults` are the decoder findings of the hub's reads, and a
copy carries the poison of its source (R201, R202, R287). -/
def State.copyStaged (s : State) (c : Nat) (g : Staged) (faults : List SymFault) : State :=
  (placeStage g.stageBase g.changed).1.foldl (fun (u : State) e =>
    let (bs, bad, u1) := u.hubRead c e.2 e.1.bytes faults
    (u1.transferWrite c e.1.dest bs false).markSpans c e.1.dest bad) s

/-- A direct swap has failed: the weight set is absent; the plan stops after the void step, or the domain breaks (R289). -/
def State.directFailure (s : State) (c st : Nat) : State :=
  let running := (s.ctx c).phase == .running
  let s1 := s.modCtx c (fun x => { x with weights := none, swap := none })
  if s.domainMode && running then s1.raiseBreak (c / 256) .timingBreak
  else if running then s1.modCtx c (fun x => { x with stopAt := some (x.stopAt.getD x.steps), step := { x.step with stopNow := some st } })
  else (s1.retireAll c st (s1.ctx c).steps).settlePhase c

/-! ### Adapters (R291 to R293) -/

/-- The lowest-numbered FREE slot of the adapter area. -/
def Ctx.freeAdapter (x : Ctx) : Option Nat := (List.range x.params.adapterSlots).find? (fun i => (mfind x.adapters i).isNone)

/-- The context address of a slot. -/
def CtxParams.slotBase (p : CtxParams) (i : Nat) : Nat := p.adapterBase + i * p.adapterSlotBytes

/-- The checks of an adapter's manifest and table, with the first failure. -/
def adapterPrepare (p : CtxParams) (slot : Nat) (manifest table : List Byte) : Except (Nat × Nat) (List Byte × List LoadEntry × List Byte) :=
  let n := manBytes manifest
  if n > 65536 then .error (stBad, rsManifest)
  else
    let m := hostRead manifest n
    if manOk m = false then .error (stBad, rsManifest)
    else if manSigned m p.adapterPubHash = false then .error (stSignature, 0)
    else
      let t := hostRead table (64 + 64 * tableCount table)
      let raw := rawEntries t
      let es := raw.map (readEntry m)
      let ids := es.map (·.shard)
      if tableHeaderOk t = false ∨ raw.all (entryOk (fieldAt m 0x10 4)) = false ∨ (nub ids).length ≠ ids.length ∨ fieldAt t 4 4 ≠ 0 ∨
          es.any (·.vaultDest) = true ∨ raw.any rawBcast = true then .error (stBad, rsManifest)
      else if es.any (fun e => decide (p.adapterSlotBytes < e.dest + e.bytes + 65536)) = true ∨ anyMeet (es.map (fun e => (e.dest, e.bytes))) = true then
        .error (stBad, rsAdapter)
      else .ok (manDigest m, es.map (fun e => { e with dest := p.slotBase slot + e.dest }), m)

/-- An adapter descriptor takes a free slot: its manifest is checked and its shards load (R292). -/
def State.beginAdapter (s : State) (w : AdapterWait) (slot : Nat) : State :=
  let c := w.ctx
  let x := s.ctx c
  match adapterPrepare x.params slot w.manifest w.table with
  | .error (st, r) => if st = stBad then s.complete w.desc st r else s.completeOpen w.desc st
  | .ok (dg, es, m) =>
    let gen := if w.replace then ((x.currentSlot w.id).map (fun i => (mget {} x.adapters i).gen)).getD 0 + 1 else 1
    let l : Load := { desc := w.desc, ctx := c, kind := .adapter w.id slot w.replace, tag := 0, group := 0, dev := w.desc.opd 4 2,
                      altDev := w.desc.opd 6 2, timeout := w.timeout, since := w.desc.start,
                      set := ⟨0, 0, dg, 0, [], 0, 0, []⟩, list := [], shards := es.map newShard, firstDeadline := false, changed := [], stageBase := 0 }
    let s1 := s.modCtx c (fun x => { x with
      adapters := mput x.adapters slot { phase := .loading, id := w.id, gen := gen, digest := dg }
      loads := x.loads ++ [l] })
    (s1.ctxWrite c (x.params.slotBase (slot + 1) - 65536) m).pumpLoad c w.desc.order

/-- Waiting adapter descriptors take slots that are free, in their order (R292). -/
def State.serveWaits (s : State) (c : Nat) : State :=
  (s.ctx c).waits.foldl (fun (u : State) w =>
    match (u.ctx c).freeAdapter with
    | some slot =>
      (u.modCtx c (fun x => { x with waits := x.waits.filter (fun y => y.desc.order != w.desc.order) })).beginAdapter w slot
    | none => u) s

/-! ### The endings of a load (R271, R280, R284, R289, R292) -/

/-- A load fails with a status and a result value. -/
def State.failLoad (s : State) (c order st result : Nat) : State :=
  match s.findLoad c order with
  | none => s
  | some l =>
    let s1 := s.dropLoad c order
    let s2 := match l.kind with
      | .weights => s1
      | .plan => s1
      | .stage => s1
      | .stageCommit => s1.modCtx c (fun x => { x with swap := none })
      | .direct => s1.directFailure c st
      | .adapter _ slot _ => (s1.modCtx c (fun x => { x with adapters := mdel x.adapters slot })).serveWaits c
    match l.kind with
    | .plan => s2.completeOpen l.desc st
    | _ => s2.complete l.desc st result

/-- Every shard of a load has verified: a weight load copies and checks its staging list last (R279, R280, R283, R285, R287, R292). -/
def State.finishLoad (s : State) (c order : Nat) : State :=
  match s.findLoad c order with
  | none => s
  | some l =>
    let s1 := s.dropLoad c order
    match l.kind with
    | .plan => s
    | .weights =>
      let n := l.set.listCount
      if !listOk (s1.ctx c).params l.set.entries l.set.listBase l.list n then s1.complete l.desc stBad rsManifest
      else
        let s2 := if n = 0 then s1 else s1.ctxWrite c l.set.listBase (hostRead l.list (32 * n) ++ List.replicate (8 * n) 0)
        let gen := (s2.ctx c).lastGen + 1
        let s3 := (s2.modCtx c (fun x => { x with weights := some { l.set with gen := gen }, lastGen := gen })).settlePhase c
        s3.complete l.desc stOk gen
    | .stage =>
      (s1.modCtx c (fun x => { x with staged := some ⟨l.set, l.changed, l.stageBase⟩ })).complete l.desc stOk l.changed.length
    | .stageCommit =>
      let s2 := s1.modCtx c (fun x => { x with swap := x.swap.map (fun w => { w with next := some ⟨l.set, l.changed, l.stageBase⟩ }) })
      if ((s2.ctx c).swap.map (s2.swapWaits c)).getD false then s2 else s2.swapStart c
    | .direct => s1
    | .adapter _ slot _ =>
      let s2 := s1.modCtx c (fun x => { x with adapters := mput x.adapters slot { mget {} x.adapters slot with verified := some l.desc } })
      if s2.runsSteps c then s2 else (s2.makeCurrent c slot l.desc).serveWaits c

/-- A load whose shards have all verified ends. -/
def State.settleLoad (s : State) (c order : Nat) : State :=
  match s.findLoad c order with
  | some l => if l.shards.all (·.verified) then s.finishLoad c order else s.pumpLoad c order
  | none => s

/-- An attempt of a shard has failed: its next one begins when its turn in table order comes, or the load fails (R280). -/
def State.failAttempt (s : State) (c order i : Nat) (digest : Bool) : State :=
  match (s.findLoad c order).bind (fun l => l.shards[i]?) with
  | none => s
  | some sh =>
    let bad := sh.digestFailed || digest
    if sh.attempt ≥ 3 then s.failLoad c order (if bad then stDigest else stShard) sh.entry.shard
    else
      let s1 := { s with link := { s.link with incoming := s.link.incoming.map (fun (x : Incoming) =>
        if x.load = some (order, i, sh.attempt) then { x with load := none, drop := true } else x) } }
      s1.putLoad c order (fun l => modShard l i (fun sh => { sh with attempt := sh.attempt + 1, fetching := false, digestFailed := bad }))

/-- Where an attempt reads: SRC, or ALT. -/
def ShardState.from_ (sh : ShardState) : Nat := if sh.onAlt then sh.entry.alt else sh.entry.src

/-- The pages of a raw vault read that no valid decoder of the context's partition holds whole, as offsets in the shard (R220, R278). -/
def State.vaultGaps (s : State) (c : Nat) (sh : ShardState) : List (Nat × Nat) :=
  if sh.kind = 3 then
    ((List.range ((sh.entry.bytes + 4095) / 4096)).map (fun i => (4096 * i, min 4096 (sh.entry.bytes - 4096 * i)))).filter (fun p =>
      !s.vaultSpan (c / 256) (sh.from_ + p.1) p.2)
  else []

/-- The bytes of a shard that has arrived, whether poison came with them, and the state with a host or vault source's bytes written; none
while a transfer is not whole. -/
def State.shardArrived (s : State) (c order i : Nat) (sh : ShardState) (data : List Byte) : Option (List Byte × Bool × State) :=
  let e := sh.entry
  if sh.kind = 1 ∨ sh.kind = 3 then
    let bs := hostRead data e.bytes
    some (bs, false, if e.vaultDest then s else s.transferWrite c e.dest bs false)
  else
    let mine := s.link.incoming.filter (fun x => x.load == some (order, i, sh.attempt))
    let total := (mine.map (·.len)).foldl (· + ·) 0
    if mine.all (fun x => decide (crateCount x.len ≤ x.got)) && decide (e.bytes ≤ total) then
      let s1 := { s with link := { s.link with incoming := s.link.incoming.filter (fun x => x.load != some (order, i, sh.attempt)) } }
      let poison := mine.any (·.poison)
      if e.vaultDest then
        let buf := mine.foldl (fun (m : Memory) x => x.buf.foldl (fun a b => writeByte a b.1 b.2) m) []
        some (readBytes buf e.dest e.bytes, poison, s1)
      else some ((s1.ctxRead c e.dest e.bytes).1, poison, s1)
    else none

/-- Write a shard to the vault in whole pages (R221, R278). -/
def State.shardToVault (s : State) (c : Nat) (e : LoadEntry) (bs : List Byte) : State :=
  let pages := (e.bytes + 4095) / 4096
  (List.range pages).foldl (fun (u : State) k => u.writeVaultPage c (e.dest + 4096 * k) (hostRead ((bs.drop (4096 * k)).take 4096) 4096)) s

end Sys2Proof.Machine
end

