-- ==== Sys2Proof/Machine/Beats.lean ====
section
/-!
DEFINITION. Frames, beat slots, stretch, operating points, plan starts and step commits (R154, R158 to R192, R299).
-/
namespace Sys2Proof.Machine

/-! ### Frames and the mark -/

/-- Hold the running timed plans to a break: the reference or the mark is not to be trusted (R186, R188). -/
def State.breakTimed (s : State) : State :=
  s.units.foldl (fun (w : State) u =>
    if (w.running u).any (fun c => match (w.ctx c).plan with | some p => !p.elreri | none => false) then w.raiseBreak u .timingBreak else w) s

/-- MARK_LOST (R188). -/
def State.markLost (s : State) : State :=
  let s1 := s.bumpAt 0 0x30050 47 16 1
  (s1.functions.foldl (fun (w : State) f => w.status f 0x30008 5) s1).eventAll 0x0206 .device s1.clk.frame 0

/-- The neighbour mark offset of largest magnitude in the frame that ends (R189).  One that 16 bits do not hold shows as the bound: DESIGN
CHOICE (log entry 61). -/
def State.worstSkew (s : State) : State :=
  let worst := s.link.ports.foldl (fun (o : Option (Nat × Int)) p =>
    match p.2.markOff, o with
    | none, _ => o
    | some v, none => some (p.1, v)
    | some v, some (_, b) => if b.natAbs < v.natAbs then some (p.1, v) else o) none
  let s1 := { s with link := { s.link with ports := s.link.ports.map (fun (p : Nat × LinkPort) => (p.1, { p.2 with markOff := none })) } }
  match worst with
  | some (p, v) =>
    let w := if v < 0 then 2 ^ 16 - min v.natAbs (2 ^ 15) else min v.natAbs (2 ^ 15 - 1)
    s1.setReg 0 0x30058 (BitVec.ofNat 64 (w + p * 2 ^ 16 + (if s.domainMode then 2 ^ 21 else 0)))
  | none => s1

/-- Ports whose lane reached the replay threshold fold at a frame start, their lane working still; every port owes the frame-start crate
of this frame to its next sequenced codeword, and an ACTIVE one a probe (R236, R253, R259). -/
def State.frameLinks (s : State) : State :=
  let due := s.link.ports.filterMap (fun p => p.2.foldAt.map (fun _ => p.1))
  let s1 := due.foldl (fun (w : State) q => if w.pstate q = psActive then w.foldPort q else w) s
  { s1 with link := { s1.link with ports := (List.range 24).foldl (fun (m : Map LinkPort) p =>
    let x := mget {} m p
    let st := s1.pstate p
    mset {} m p { x with fstart := true, probeDue := st == psActive, samples := (x.oneWay :: x.samples).take 16, oneWay := none }) s1.link.ports } }

/-- A frame starts at a tick: the frame count, the slot numbers and the exchanges of a frame start (R158 to R160, R189, R236). -/
def State.newFrame (s : State) (tick : Nat) : State :=
  let units := s.units.foldl (fun (m : Map SlipUnit) u => mset {} m u { mget {} m u with nextSlot := 0, landing := false }) s.clk.units
  let s1 := { s with clk := { s.clk with tick := max s.clk.tick tick, frameStart := tick, frame := satAdd 64 s.clk.frame 1, units := units } }
  s1.worstSkew.frameLinks

/-- FRAME_START: a frame starts at the counted position; `mark` says whether a suppressed edge stood there (R158, R188). -/
def execFrameStart (mark : Bool) (s : State) : Host.Outcome State Fault Refusal :=
  if s.clk.locked then
    let s1 := s.newFrame (s.clk.frameStart + frameTicks)
    if s.clk.holdover then .next s1
    else if mark then
      let n := s.clk.marksSeen + 1
      .next { s1 with clk := { s1.clk with marksSeen := n, markAcq := s1.clk.markAcq || decide (2 ≤ n), displaced := none } }
    else
      let s2 := { s1 with clk := { s1.clk with marksSeen := 0 } }
      .next (if s.clk.markAcq then s2.markLost else s2)
  else .next s

/-- DISPLACED_MARK: a suppressed edge at another position of the frame (R158, R187, R188).  Before the mark is acquired the second
edge exactly a frame after the first acquires it; afterwards the third at one new position adopts that position (log entry 55). -/
def execDisplacedMark (pos : Nat) (s : State) : Host.Outcome State Fault Refusal :=
  if s.clk.locked && !s.clk.holdover && decide (0 < pos) && decide (pos < frameTicks) then
    let seen := match s.clk.displaced with
      | some (p, n, f) => if p = pos ∧ (s.clk.markAcq = true ∨ f + 1 = s.clk.frame) then n + 1 else 1
      | none => 1
    let note := fun (w : State) => { w with clk := { w.clk with displaced := some (pos, seen, s.clk.frame) } }
    let near := decide (pos ≤ 1) || decide (frameTicks - 1 ≤ pos)
    if s.clk.markAcq then
      let s1 := note s.markLost
      if seen ≥ 3 then
        let s2 := { s1 with clk := { s1.clk with displaced := none } }
        .next (if near then s2 else (s2.newFrame (s.clk.frameStart + pos)).breakTimed)
      else .next s1
    else if seen ≥ 2 then
      let s1 := { s with clk := { s.clk with displaced := none, marksSeen := 2, markAcq := true } }
      .next (if near then s1 else s1.newFrame (s.clk.frameStart + pos))
    else .next (note s)
  else .next s

/-- REF_LOST: four reference edges are missing, and the PLL holds its last frequency (R186). -/
def execRefLost (s : State) : Host.Outcome State Fault Refusal :=
  if s.clk.locked && !s.clk.holdover then
    let s1 := { s with clk := { s.clk with holdover := true, markAcq := false, marksSeen := 0, displaced := none } }
    let s2 := s1.functions.foldl (fun (w : State) f => w.status f 0x30008 4) s1
    .next ((s2.eventAll 0x0205 .device s.clk.frame 0).breakTimed)
  else .next s

/-- REF_RELOCK: the PLL locks again and the mark is to be acquired afresh (R187). -/
def execRefRelock (s : State) : Host.Outcome State Fault Refusal :=
  if s.clk.holdover then .next { s with clk := { s.clk with holdover := false, markAcq := false, marksSeen := 0, displaced := none } }
  else .next s

/-! ### Slot boundaries -/

/-- Pass to the slot boundary that comes next. -/
def State.toBoundary (s : State) (u : Nat) (landing : Bool) : State :=
  let s1 := s.advanceTo (s.nextBoundary u)
  s1.setUnit u { s1.unit u with nextSlot := (s.unit u).nextSlot + 1, landing := landing }

/-- Adapter descriptors of a unit's contexts take the slots that a plan's stop has freed (R292, R293). -/
def State.serveUnit (s : State) (u : Nat) : State := (s.ctxsOf u).foldl State.serveWaits s

/-- SLOT_BOUNDARY of a slip unit, where no landing beat begins (R162, R174, R180, R225). -/
def execSlotBoundary (u : Nat) (s : State) : Host.Outcome State Fault Refusal :=
  if s.clk.locked && s.units.contains u && decide ((s.unit u).nextSlot + 1 < s.slotsPerFrame u) then
    let (go, s1) := (s.toBoundary u false).boundary u
    .next ((if go then s1.tryStart u else s1).serveUnit u)
  else .next s

/-- LANDING_BEAT_START of a slip unit: the landing beat carries no work, or a catch-up plan beat (R161, R175, R176). -/
def execLandingBeatStart (u : Nat) (s : State) : Host.Outcome State Fault Refusal :=
  if s.clk.locked && s.units.contains u && decide ((s.unit u).nextSlot + 1 = s.slotsPerFrame u) then
    let (go, s1) := (s.toBoundary u true).boundary u
    let debt := (s1.unit u).debt
    let running := !(s1.active u).isEmpty && !(s1.unit u).stopped
    let s2 := if s1.domainMode && running && !s1.onlyElreri u && !s1.intolerant u && decide (2 ≤ debt) then s1.raiseBreak u .planDrift else s1
    if !(s2.unit u).breaks.isEmpty then .next ((if running then s2.stopEffect u else s2).serveUnit u)
    else if go && running && decide (1 ≤ debt) && !(s2.unit u).halting && (s2.unit u).resume.isNone then
      let before := (s2.unit u).started
      let s3 := s2.tryStart u
      .next ((if (s3.unit u).started = before then s3
        else (s3.setUnit u { s3.unit u with debt := debt - 1 }).status u 0x30008 1).serveUnit u)
    else .next (s2.serveUnit u)
  else .next s

/-- WORK_CYCLES_DONE: a region has run its B − S work cycles and gates (R163).  A region whose stretch exceeds the budget does not
complete before the next slot boundary (R168). -/
def execWorkCyclesDone (r : Nat) (s : State) : Host.Outcome State Fault Refusal :=
  if s.regionRuns r && s.inBudget r && ((s.region r).fenced || (tilesOfRegion r).all s.tileEnded) then
    .next (s.setRegion r { s.region r with done := true })
  else .next s

/-- A tile counts as finished for the plan beat, by a BEND or a HALT, and has nothing in progress (R129, R166). -/
def State.tileFinished (s : State) (k : Nat) : Bool :=
  let t := s.tile k
  t.recv.isEmpty &&
  (t.code.isNone || (t.quiet && t.sends.isEmpty && t.streams.isEmpty && (t.hold == .beat || t.hold == .halted)))

/-- The port dies that hold the cellar sites of a span of a tile's context. -/
def State.cellarSides (s : State) (k a len : Nat) : Bool × Bool :=
  match s.checkExtent (s.ctxOfTile k) a len with
  | .ok ad =>
    let sites := (List.range ((ad + len + 4095) / 4096 - ad / 4096)).map (fun i => (s.placePage (ad / 4096 + i)).1)
    (sites.any (fun i => decide (i ≤ 5)), sites.any (fun i => decide (5 < i)))
  | _ => (false, false)

/-- The port dies that a tile's crates and hub transfers may leave by (R28). -/
def State.tileSides (s : State) (k : Nat) : Bool × Bool :=
  if s.nparts = 8 then (decide (k % 64 < 32), decide (32 ≤ k % 64)) else (true, true)

/-- Whether traffic of a tile has a router of a region on its way (R166): its transfers, its plan streams and its line fills. -/
def State.trafficIn (s : State) (k r : Nat) : Bool :=
  let t := s.tile k
  let edge := fun (q : Bool × Bool) => edgeRoute k q.1 q.2 r
  t.sends.any (fun x => match x.kind with
    | .mesh d _ _ => meshRoute k d r
    | .cellar a _ => edge (s.cellarSides k a x.len)
    | _ => edge (s.tileSides k)) ||
  t.streams.any (fun x => edge (s.cellarSides k x.cel x.len)) ||
  (match t.code with
   | some (_, base) => t.lines.any (fun l => l.2.filling && edge (s.cellarSides k (base + 32 * l.2.tag) 2048))
   | none => false)

/-- EARLY_GATE: every tile of the region has finished and its routers and landings are empty (R166); a fused region never gates early. -/
def execEarlyGate (r : Nat) (s : State) : Host.Outcome State Fault Refusal :=
  if s.regionRuns r && s.enabled r && !(s.region r).fenced && (tilesOfRegion r).all s.tileFinished &&
      s.tiles.all (fun p => !s.trafficIn p.1 r) && s.clk.landings.all (fun p => regionOfTile (p.1 / 4) != r || p.2.isEmpty) then
    .next (s.setRegion r { s.region r with done := true })
  else .next s

/-- The neighbours of a region (R169, R170): across a mesh boundary, in its own partition. -/
def State.neighbours (s : State) (r : Nat) : List Nat :=
  (List.range 64).filter (fun q =>
    ((r / 8 == q / 8 && (r % 8 == q % 8 + 1 || q % 8 == r % 8 + 1)) || (r % 8 == q % 8 && (r / 8 == q / 8 + 1 || q / 8 == r / 8 + 1)))
      && s.partOfRegion q == s.partOfRegion r)

/-- E of R169: how far the T of a running neighbour exceeds the region's own by more than 8 D − 4 ticks. -/
def State.sympathy (s : State) (r : Nat) : Nat :=
  ((s.neighbours r).filter s.regionRuns).foldl (fun m q => max m ((s.region q).stretch - ((s.region r).stretch + 8 * s.div - 4))) 0

/-- STRETCH: the largest severity of the region's monitors in a period, 0 to 4, and its sympathetic stretch lengthen its next
period (R167, R169). -/
def execStretch (r sev : Nat) (s : State) : Host.Outcome State Fault Refusal :=
  if s.regionRuns r && decide (sev ≤ 4) && (s.enabled r || sev == 0) then
    let e := s.sympathy r
    let g := s.region r
    .next (s.setRegion r { g with stretch := g.stretch + max sev e, symp := g.symp + (e - sev) })
  else .next s

/-! ### Beat settings and operating points -/

/-- A register write as it reaches the device: 64 bits, or one half (R7). -/
def writeMask (lo hi : Bool) : W64 := (if lo then 0xFFFFFFFF#64 else 0) ||| (if hi then 0xFFFFFFFF00000000#64 else 0)

/-- BEAT_CFG_WRITE (R191). -/
def execBeatCfgWrite (fn : Nat) (v : W64) (lo hi : Bool) (s : State) : Host.Outcome State Fault Refusal :=
  let x := s.unit fn
  let m := v &&& writeMask lo hi
  let k := getBits m 3 0
  let sl := getBits m 16 8
  if s.functions.contains fn && lo && decide (10 ≤ k) && decide (k ≤ 14) && decide (16 ≤ sl) && decide (sl ≤ 256) &&
      !x.startHeld && (s.running fn).isEmpty && s.dom.isNone then
    .next (s.setUnit fn { x with pend := some (k, sl) })
  else .next s

/-- BEAT_CFG_APPLY: pending beat values come into force at a frame start (R191). -/
def execBeatCfgApply (u : Nat) (s : State) : Host.Outcome State Fault Refusal :=
  let x := s.unit u
  match x.pend with
  | some (k, sl) =>
    if s.clk.locked && s.clk.tick == s.clk.frameStart && x.nextSlot == 0 then .next (s.setUnit u { x with k := k, slack := sl, pend := none })
    else .next s
  | none => .next s

/-- The current frame number as OP_CHANGE names it: local, or of the domain (R182). -/
def State.frameNow (s : State) : Nat := if s.domainMode then (s.clk.frame + s.clk.offset) % 2 ^ 64 else s.clk.frame

/-- OP_CHANGE (R182, R343). -/
def execOpChange (fn q : Nat) (s : State) : Host.Outcome State Fault Refusal :=
  .next (s.execDesc fn q (opIs 0x70) (fun d s =>
    let frame := d.opd 0 8
    let op := d.opd 8 1
    s.check d (reasons [
      (decide (3 < op) || !d.reservedOk [(0, 9)], rsGeometry),
      (s.clk.opPend.isSome, rsBusy),
      (decide (frame < d.frame + 2), rsOpFrame),
      (!s.domainMode && s.clk.opOwner != fn, rsOpOwner)]) (fun s =>
      { s with clk := { s.clk with opPend := some ⟨frame, op, fn, q, d.order⟩ } })))

/-- OP_CHANGE_APPLY: at the first tick of the named frame the divider of every region changes (R183). -/
def execOpChangeApply (s : State) : Host.Outcome State Fault Refusal :=
  match s.clk.opPend with
  | some o =>
    if s.frameNow = o.frame ∧ s.clk.tick = s.clk.frameStart then
      let s1 := { s with clk := { s.clk with op := o.op, opPend := none } }
      let s2 := s1.functions.foldl (fun (w : State) f => w.status f 0x30008 7) s1
      .next (match (s2.queue o.fn o.queue).executing.find? (fun d => d.order == o.tag) with
        | some d => s2.completeOpen d stOk
        | none => s2)
    else .next s
  | none => .next s

/-! ### Plan beat 0 and the step commit -/

/-- PLAN_START of a context's plan (R154, R162, R422, R432).  Where the mark has been lost since the start descriptor executed, no plan
starts: the start completes TIMING_BREAK, and the replay of a timed plan waits (R158, R186).  `faults` are the decoder findings of the reads
that the set-up makes (R201). -/
def execPlanStart (c : Nat) (faults : List SymFault) (s : State) : Host.Outcome State Fault Refusal :=
  let x := s.ctx c
  if s.clk.locked && s.startsNow c then
    if s.markBad && x.step.starting != some none then .next (s.dropStart c stTimingBreak)
    else if s.markBad && !((x.plan.map (·.elreri)).getD false) then .next s
    else .next ((s.planStart c faults).serveUnit (c / 256))
  else .next s

/-- STEP_COMMIT of a context whose step's end mark has passed (R57, R135, R299, R300, R433); adapter descriptors that wait take the slots it freed (R292).
`faults` are the decoder findings of the hub's reads in the commit (R201, R208). -/
def execStepCommit (c : Nat) (faults : List SymFault) (s : State) : Host.Outcome State Fault Refusal :=
  if s.faults.coreFault then .next s else .next (((s.stepCommit c faults).nextMark c).serveWaits c)

/-- ARRAY_ROW_TEST_DONE: the row test of a fenced region's tile ends; `rows` are the rows that fail, 32 being the checksum row, and
`elsewhere` says that the failing part lies outside a single row.  The repair is recorded (R58, R59, R426).  DESIGN CHOICE (log entry 64):
where no row fails and nothing fails elsewhere, of which the table says nothing, the spare tile row is recorded; where exactly one row
fails, the tile's spare row is unused and the region's spare tile row is used, so that the first and the third line of the table match,
the first is taken. -/
def execArrayRowTestDone (k : Nat) (rows : List Nat) (elsewhere : Bool) (s : State) : Host.Outcome State Fault Refusal :=
  if s.faults.rowTests.contains k then
    let r := regionOfTile k
    let g := s.region r
    let s1 := { s with faults := { s.faults with rowTests := s.faults.rowTests.filter (· != k) } }
    let one := !elsewhere && (nub rows).length == 1 && decide (rows.headD 0 ≤ 32)
    let full := decide (4 ≤ g.repairSlots)
    let (kind, g') :=
      if !full && one && !g.spareRows.contains k then
        (some (0, rows.headD 0), { g with spareRows := g.spareRows ++ [k], repairSlots := g.repairSlots + 1 })
      else if !full && !g.spareTileRow then (some (1, k / 64 % 8), { g with spareTileRow := true, repairSlots := g.repairSlots + 1 })
      else (none, g)
    let s2 := s1.setRegion r g'
    let s3 := match kind with
      | some (kd, row) => s2.addRepair (repairEntry k kd row 0)
      | none => s2
    .next (s3.event [s3.unitOf r] 0x0101 (.region r) k ((kind.map (·.1)).getD 3))
  else .next s

end Sys2Proof.Machine
end

