-- ==== Sys2Proof/Machine/Queues.lean ====
section
/-!
DEFINITION. Doorbells, rings, fetches, completions, sync flags and waits; the CXL ports, failover and TDISP (R143, R321, R324, R327 to
R341, R353).
-/
namespace Sys2Proof.Machine

/-! ### Doorbells (R327, R329) -/

/-- A doorbell write carries its index in the low half. -/
def doorbellValue (v : W64) : Nat := getBits v 15 0

/-- A doorbell is ignored. -/
def State.doorbellErr (s : State) (fn : Nat) : State := s.status fn 0x10000 0

/-- SQ_TAIL (R327, R337). -/
def execSqTail (fn q : Nat) (v : W64) (lo : Bool) (s : State) : Host.Outcome State Fault Refusal :=
  if !(s.functions.contains fn) || decide (64 ≤ q) || !lo then .next s
  else
    let n := doorbellValue v
    if s.queueOn fn q = false ∨ s.ringSize fn q ≤ n then .next (s.doorbellErr fn)
    else
      let x := s.queue fn q
      let idle := x.waiting.isEmpty && s.field fn (qpos q) 15 0 == s.field fn (qpos q) 31 16
      let s1 := s.setQueue fn q { x with sqTail := n, bell := if idle || x.bell.isNone then some s.host.bells else x.bell }
      .next ({ s1 with host := { s1.host with bells := s1.host.bells + 1 } }.setField fn (qpos q) 31 16 n)

/-- CQ_HEAD (R327, R329). -/
def execCqHead (fn q : Nat) (v : W64) (lo : Bool) (s : State) : Host.Outcome State Fault Refusal :=
  if !(s.functions.contains fn) || decide (64 ≤ q) || !lo then .next s
  else
    let n := doorbellValue v
    let size := s.ringSize fn q
    if s.queueOn fn q = false ∨ size ≤ n then .next (s.doorbellErr fn)
    else
      let x := s.queue fn q
      .next (s.setQueue fn q { x with cqHead := n, uncovered := (s.field fn (qpos q) 47 32 + size - n) % size })

/-! ### Enabling and disabling (R328, R333, R361) -/

/-- A WAIT that is executing ends with its queue: OK if its flag has reached its VALUE, else WAIT_TIMEOUT. -/
def State.endWait (s : State) (fn q : Nat) : State :=
  let x := s.queue fn q
  match x.waitNow with
  | some d => match x.hit with
    | some v => s.complete d stOk v
    | none => s.completeOpen d stWaitTimeout
  | none => s

/-- Store CLASS and SIZE_LOG2 of a write to QCFG_QCTLn. -/
def State.storeQctl (s : State) (fn q : Nat) (v : W64) : State := (s.setField fn (qctl q) 2 1 (getBits v 2 1)).setField fn (qctl q) 7 3 (getBits v 7 3)

/-- QUEUE_ENABLE: a write of EN = 1 (R328, R361). -/
def execQueueEnable (fn q : Nat) (v : W64) (lo : Bool) (s : State) : Host.Outcome State Fault Refusal :=
  if !(s.functions.contains fn) || decide (64 ≤ q) || !lo || !(v.getLsbD 0) || s.queueOn fn q then .next s
  else
    let s1 := s.storeQctl fn q v
    let k := getBits v 7 3
    if k < 6 ∨ 16 < k then .next s1
    else
      let x := s1.queue fn q
      let s2 := s1.setQueue fn q { executing := x.executing }
      .next ((s2.setField fn (qctl q) 0 0 1).setReg fn (qpos q) (BitVec.ofNat 64 (2 ^ 48)))

/-- QUEUE_DISABLE: a write of EN = 0 (R333). -/
def execQueueDisable (fn q : Nat) (v : W64) (lo : Bool) (s : State) : Host.Outcome State Fault Refusal :=
  if !(s.functions.contains fn) || decide (64 ≤ q) || !lo || v.getLsbD 0 then .next s
  else if s.queueOn fn q then
    let s1 := s.setField fn (qctl q) 0 0 0
    let s2 := s1.setQueue fn q { s1.queue fn q with waiting := [], bell := none, held := false }
    .next (s2.endWait fn q)
  else .next (s.storeQctl fn q v)

/-! ### Fetching (R143, R329, R333, R337) -/

/-- Whether a queue's next descriptor may be fetched, leaving class order aside. -/
def State.fetchable (s : State) (fn q : Nat) : Bool :=
  let x := s.queue fn q
  s.queueOn fn q && !x.stopped && !x.held && !s.faults.coreFault && s.reachable fn &&
    s.field fn (qpos q) 15 0 != s.field fn (qpos q) 31 16 &&
    decide (x.waiting.length + x.executing.length + x.uncovered < s.ringSize fn q)

/-- The descriptor break unit that a fetched descriptor matches (R143). -/
def State.queueBreak (s : State) (fn q count tag : Nat) : Option Nat :=
  if s.debug then
    (List.range 4).find? (fun n =>
      let c := s.reg fn (0x70200 + 16 * n)
      getBits c 7 2 == q &&
        ((getBits c 1 0 == 1 && s.field fn (0x70208 + 16 * n) 47 0 == count) ||
         (getBits c 1 0 == 2 && (tag &&& getBits c 23 16) == (getBits c 15 8 &&& getBits c 23 16))))
  else none

/-- DESCRIPTOR_FETCH: the queue engine reads the 64 bytes at a queue's head (R329, R143).  That a descriptor which matches while the scope is
halted, or a halt waits, is held too is DESIGN CHOICE (log entry 75). -/
def execDescriptorFetch (fn q : Nat) (bytes : List Byte) (s : State) : Host.Outcome State Fault Refusal :=
  if decide (q < 64) && s.functions.contains fn && s.fetchable fn q && s.firstQueue fn q s.fetchable then
    let x := s.queue fn q
    let head := s.field fn (qpos q) 15 0
    let bs := (bytes ++ List.replicate 64 0).take 64
    let n := x.fetched + 1
    let hit := s.queueBreak fn q n (fieldAt bs 2 1)
    let s1 := s.setQueue fn q { x with waiting := x.waiting ++ [⟨head, bs, s.frameNow⟩], fetched := n, held := hit.isSome }
    let s2 := s1.setField fn (qpos q) 15 0 ((head + 1) % s.ringSize fn q)
    .next (match hit with | some u => s2.askHalt fn ⟨3, 4 + u, 0, 0, s2.clk.tick, 0⟩ | none => s2)
  else .next s

/-- FETCH_ERROR: a fetch ends in an error or poison, and the queue stops (R333). -/
def execFetchError (fn q : Nat) (s : State) : Host.Outcome State Fault Refusal :=
  if decide (q < 64) && s.functions.contains fn && s.fetchable fn q then
    let s1 := s.setQueue fn q { s.queue fn q with waiting := [], bell := none, stopped := true }
    .next ((s1.endWait fn q).status fn 0x10000 1)
  else .next s

/-- DESCRIPTOR_COMPLETE: the n-th descriptor whose work is done is completed (R332). -/
def execDescriptorComplete (n : Nat) (s : State) : Host.Outcome State Fault Refusal :=
  match s.host.done[n]? with
  | some (d, st, v) =>
    if s.faults.coreFault then .next s
    else .next ({ s with host := { s.host with done := s.host.done.eraseIdx n } }.complete d st v)
  | none => .next s

/-! ### NOP, SIGNAL and WAIT (R331, R334, R339 to R341) -/

/-- NOP; an unknown opcode is refused here too (R331, R334). -/
def execNop (fn q : Nat) (s : State) : Host.Outcome State Fault Refusal :=
  .next (s.execDesc fn q (fun bs => opIs 1 bs || !(knownOpcodes.contains (fieldAt bs 0 1))) (fun d s =>
    s.check d (reasons [(!d.reservedOk [], rsGeometry)]) (fun s => s.completeOpen d stOk)))

/-- The checks of SIGNAL. -/
def signalFaults (d : DescRef) : List Nat :=
  reasons [(!d.reservedOk [(0, 3), (8, 8)] || decide (1 < d.opd 2 1), rsGeometry), (decide (4096 ≤ d.opd 0 2), rsFlag)]

/-- SIGNAL_SET; a MODE above 1 is refused here (R339). -/
def execSignalSet (fn q : Nat) (s : State) : Host.Outcome State Fault Refusal :=
  .next (s.execDesc fn q (fun bs => opIs 3 bs && opdByte bs 2 != 1) (fun d s =>
    s.check d (signalFaults d) (fun s => (s.setSyncFlag fn (d.opd 0 2) (d.opd 8 8)).complete d stOk (d.opd 8 8))))

/-- SIGNAL_ADD (R339). -/
def execSignalAdd (fn q : Nat) (s : State) : Host.Outcome State Fault Refusal :=
  .next (s.execDesc fn q (fun bs => opIs 3 bs && opdByte bs 2 == 1) (fun d s =>
    s.check d (signalFaults d) (fun s =>
      let s1 := s.addSyncFlag fn (d.opd 0 2) (d.opd 8 8)
      s1.complete d stOk (s1.syncFlag fn (d.opd 0 2)))))

/-- WAIT (R340): it completes at once where the flag has its value. -/
def execWait (fn q : Nat) (s : State) : Host.Outcome State Fault Refusal :=
  .next (s.execDesc fn q (opIs 2) (fun d s =>
    s.check d (reasons [(!d.reservedOk [(0, 2), (8, 8), (16, 4)], rsGeometry),
      (decide (4096 ≤ d.opd 0 2) || decide (d.opd 16 4 = 0), rsFlag)]) (fun s =>
      let v := s.syncFlag fn (d.opd 0 2)
      if d.opd 8 8 ≤ v then s.complete d stOk v else s)))

/-- WAIT_SATISFIED: the flag of a queue's WAIT has reached its VALUE (R340). -/
def execWaitSatisfied (fn q : Nat) (s : State) : Host.Outcome State Fault Refusal :=
  let x := s.queue fn q
  match x.waitNow, x.hit with
  | some d, some v => .next (s.complete d stOk v)
  | _, _ => .next s

/-- WAIT_TIMEOUT: TIMEOUT_US after execution the flag has not reached the VALUE (R340). -/
def execWaitTimeout (fn q : Nat) (s : State) : Host.Outcome State Fault Refusal :=
  let x := s.queue fn q
  match x.waitNow, x.hit with
  | some d, none => .next ((s.advanceTo (d.start + d.opd 16 4 * ticksPerUs)).completeOpen d stWaitTimeout)
  | _, _ => .next s

/-- A queue is blocked: it executes a WAIT whose flag has not reached its VALUE (R341). -/
def Queue.blockedOn (x : Queue) : Option Nat :=
  match x.waitNow, x.hit with
  | some d, none => some (d.opd 0 2)
  | _, _ => none

/-- Whether a descriptor could set a flag: a SIGNAL naming it, or its DONE_FLAG (R341). -/
def setsFlag (bs : List Byte) (f : Nat) : Bool := (opIs 3 bs && fieldAt bs 16 2 == f) || fieldAt bs 8 2 == f

/-- The queues reachable from some in `n` steps of an edge relation. -/
def reach (edges : List (Nat × Nat)) : Nat → List Nat → List Nat
  | 0, l => l
  | n + 1, l => reach edges n (nub (l ++ (edges.filter (fun e => l.contains e.1)).map (·.2)))

/-- The queues of a function in a wait cycle; `later` gives, for a queue, the submitted descriptors not yet fetched. -/
def State.waitCycles (s : State) (fn : Nat) (later : Map (List (List Byte))) : List Nat :=
  let qs := (List.range 64).filter (fun q => (s.queue fn q).blockedOn.isSome)
  let after := fun (q : Nat) => (s.queue fn q).waiting.map (·.bytes) ++ mget [] later q
  let edges := qs.flatMap (fun a => (qs.filter (fun b => match (s.queue fn a).blockedOn with
    | some f => (after b).any (fun bs => setsFlag bs f)
    | none => false)).map (fun b => (a, b)))
  qs.filter (fun q => (reach edges 64 ((edges.filter (fun e => e.1 == q)).map (·.2))).contains q)

/-- WAIT_CYCLE_CHECK of a partition; firmware reads from host memory the descriptors submitted and not yet fetched (R341). -/
def execWaitCycleCheck (fn : Nat) (later : List (Nat × List (List Byte))) (s : State) : Host.Outcome State Fault Refusal :=
  let m := later.foldl (fun (m : Map (List (List Byte))) p => mput m p.1 p.2) []
  let qs := s.waitCycles fn m
  if qs.isEmpty || s.faults.coreFault then .next s
  else
    let s1 := qs.foldl (fun (u : State) q => match (u.queue fn q).waitNow with
      | some d => u.completeOpen d stWaitCycle
      | none => u) s
    .next (s1.status fn 0x10000 2)

/-! ### The CXL ports, failover, TDISP (R321, R324, R353, R389) -/

def portReg (p : Nat) : Nat := 0x10008 + 8 * p

/-- Writes that waited for a function's port go out in their order; a completion entry counts its DONE_FLAG after it (R324, R332). -/
def State.flushWrites (s : State) (fn : Nat) : State :=
  let mine := s.host.unflushed.filter (fun w => w.1 == fn)
  let s1 := { s with host := { s.host with unflushed := s.host.unflushed.filter (fun w => w.1 != fn) } }
  mine.foldl (fun (u : State) w =>
    let u1 := { u.emit w.2.1 with host := { u.host with recent := uncovered fn w.2.1 u.host.recent } }
    match w.2.2 with
    | some f => u1.addSyncFlag fn f 1
    | none => u1) s1

/-- CXL_LINK_UP: a port has trained to a rate (1: 32 GT/s, 2: 64 GT/s) and a width (R321). -/
def execCxlLinkUp (p speed width : Nat) (s : State) : Host.Outcome State Fault Refusal :=
  if s.power.good = true ∧ p < 2 ∧ (speed = 1 ∨ speed = 2) ∧ (width = 2 ∨ width = 4 ∨ width = 8) then
    let s1 := { s with host := { s.host with ports := mset {} s.host.ports p {} } }
    let s2 := (List.range 8).foldl (fun (u : State) fn => u.setField fn (portReg p) 6 0 (1 + 2 * speed + 8 * width)) s1
    .next (s2.functions.foldl (fun (u : State) fn => if u.reachable fn then u.flushWrites fn else u) s2)
  else .next s

/-- CXL_LINK_DOWN (R324). -/
def execCxlLinkDown (p : Nat) (s : State) : Host.Outcome State Fault Refusal :=
  if p < 2 ∧ s.field 0 (portReg p) 0 0 = 1 then
    let s1 := { s with host := { s.host with ports := mset {} s.host.ports p { downAt := some s.clk.tick } } }
    .next ((List.range 8).foldl (fun (u : State) fn => (u.setField fn (portReg p) 6 0 0).setField fn (portReg p) 9 9 0) s1)
  else .next s

/-- The home port of a function. -/
def State.homeOf (s : State) (fn : Nat) : Nat := if s.field fn (portReg 1) 7 7 = 1 then 1 else 0

/-- FAILOVER: the home port has been down for 10 ms (R324). -/
def execFailover (fn : Nat) (s : State) : Host.Outcome State Fault Refusal :=
  let h := s.homeOf fn
  match (mget {} s.host.ports h : CxlPort).downAt with
  | some t =>
    if s.functions.contains fn && s.portOf fn == h then
      let s1 := s.advanceTo (t + 10 * ticksPerMs)
      let s2 := (s1.setField fn (portReg h) 8 8 0).setField fn (portReg (1 - h)) 8 8 1
      .next ({ s2 with host := { s2.host with moved := s2.host.moved.filter (· != fn) ++ [fn] } }.status fn 0x10000 3)
    else .next s
  | none => .next s

/-- FAILOVER_RESUME: memory space is enabled at the new port; the writes issued after the last completed flushing read are made again, in
their order, and waiting writes go out (R324). -/
def execFailoverResume (fn : Nat) (s : State) : Host.Outcome State Fault Refusal :=
  if s.host.moved.contains fn && s.field fn (portReg (s.portOf fn)) 0 0 == 1 then
    let s1 := { s with host := { s.host with moved := s.host.moved.filter (· != fn) } }
    let again := (s.host.recent.filter (fun w => w.1 == fn)).map (·.2)
    .next ((again.foldl (fun (u : State) o => u.emit o) s1).flushWrites fn)
  else .next s

/-- Every queue and hatch of a function is disabled, and every executing descriptor completes PARTITION_FENCED (R353). -/
def State.fenceFunction (s : State) (fn : Nat) : State :=
  let s1 := (List.range 64).foldl (fun (u : State) q =>
    let u1 := u.setField fn (qctl q) 0 0 0
    let u2 := u1.setQueue fn q { u1.queue fn q with waiting := [], bell := none, held := false }
    (u2.queue fn q).executing.foldl (fun (w : State) d => w.completeOpen d stFenced) u2) s
  (List.range 16).foldl (fun (u : State) h => (u.setField fn (hcfg h) 0 0 0).setField fn (hcfg h) 9 9 0) s1

/-- A function's TDISP state changes (R353): leaving RUN while a plain hatch is enabled fences the function. -/
def State.setTdisp (s : State) (fn st : Nat) : State :=
  let was := s.field fn 0x10018 1 0
  let s1 := s.setField fn 0x10018 1 0 st
  if was = 2 ∧ st ≠ 2 ∧ (List.range 16).any (fun h => s.hatchOn fn h && s.slotPlain fn h) = true then
    (s1.fenceFunction fn).status fn 0x10000 4
  else s1

/-- TDISP_EXIT: the TDISP state leaves RUN for another state (R353). -/
def execTdispExit (fn st : Nat) (s : State) : Host.Outcome State Fault Refusal :=
  if s.functions.contains fn && s.field fn 0x10018 1 0 == 2 && decide (st < 4) && st != 2 then .next (s.setTdisp fn st) else .next s

end Sys2Proof.Machine
end

