-- ==== Sys2Proof/Machine/BootOps.lean ====
section
/-!
DEFINITION. The shared operations of power, boot and trust: the power history (R448), shutdowns (R447, R452), the triggers of cold and
warm boots (R363, R364, R367, R384), control-core faults (R435), requests for a lower operating point (R185), and what the repair
fuses say of the regions (R59, R382, R383).
-/
namespace Sys2Proof.Machine

/-! ### The power history (R448) -/

/-- The slots that hold a cause: every slot with a fuse of its CAUSE blown. -/
def Fuses.usedHistory (f : Fuses) : List Nat := (List.range 16).filter (fun i => ((mget 0 f.history i : BitVec 8) &&& 0x0F#8) != 0)

/-- Record a cause in the lowest unused slot; when all 16 are used, nothing. -/
def Fuses.recordCause (f : Fuses) (cause detail : Nat) : Fuses :=
  match (List.range 16).find? (fun i => !f.usedHistory.contains i) with
  | some i => { f with history := mset 0 f.history i (mget 0 f.history i ||| BitVec.ofNat 8 (cause % 16 + detail % 8 * 16)) }
  | none => f

/-- Record a shutdown's cause.  `cut` is what the slot reads after a recording that is interrupted: a CAUSE that no cause has, which the
registers report as UNKNOWN (R448). -/
def Fuses.record (f : Fuses) (cause detail : Nat) (cut : Option Nat) : Fuses :=
  match cut with
  | none => f.recordCause cause detail
  | some v => f.recordCause (v % 16) (v / 16)

/-- An interrupted recording leaves a CAUSE that is not listed (R448). -/
def cutOk (cut : Option Nat) : Bool := match cut with | none => true | some v => decide (5 < v % 16)

/-- The slots that hold a cause without REPORTED. -/
def Fuses.unreported (f : Fuses) : List Nat := f.usedHistory.filter (fun i => !(mget 0 f.history i : BitVec 8).getLsbD 7)

/-- A power-up marks the unreported slots as new and blows REPORTED for each. -/
def Fuses.report (f : Fuses) : Fuses :=
  { f with history := f.unreported.foldl (fun m i => mset 0 m i (mget 0 m i ||| 0x80#8)) f.history }

/-- The causes of the power history. -/
def caReversed : Nat := 1
def caOvervoltage : Nat := 2
def caRailShort : Nat := 3
def caOvercurrent : Nat := 4
def caThermal : Nat := 5

/-- A cause whose return to service asks for the removal of the input (R447). -/
def needsRemoval (c : Nat) : Bool := [caRailShort, caOvercurrent, caThermal].contains c

/-! ### The fuses in the registers (R24, R32, R199, R266, R396, R465) -/

/-- Present cellar sites, encode engines, ports and tiles of a grade (R3, R4, R32). -/
def gradeSites (g : Nat) : Nat := if g = 3 then 0x3CF else 0xFFF
def gradeEncoders (g : Nat) : Nat := if g = 1 then 0xF else 0
def gradePorts (g : Nat) : Nat := if g = 3 then 0xFC9FC9 else 0xFFFFFF
def gradeTiles (g : Nat) : Nat := if g = 1 then 0x1000 else if g = 2 then 0x0E00 else 0x0C00

/-- Spoilt slots on the module. -/
def Fuses.spoilt (f : Fuses) : Nat := (f.slots.filter (fun x => !x.valid)).length

/-- Store digest bytes in eight registers from an offset on (R396). -/
def State.setDigest (s : State) (off : Nat) (d : List Byte) : State :=
  (List.range 8).foldl (fun (u : State) i => u.setReg 0 (off + 8 * i) (BitVec.ofNat 64 (fieldAt d (8 * i) 8))) s

/-- Write the fields that show the fuses. -/
def State.showFuses (s : State) : State :=
  let f := s.boot.fuses
  let regions := ones f.shape.toNat 64
  let s1 := ((s.setField 0 0 27 24 f.grade).setField 0 0 31 28 f.stepping).setField 0 0 47 32 (gradeTiles f.grade)
  let s2 := (s1.setReg 0 0x08 (BitVec.ofNat 64 f.serial)).setReg 0 0x10 f.shape
  let s3 := s2.setReg 0 0x18 (BitVec.ofNat 64 (64 * regions + regions * 2 ^ 13 + gradeSites f.grade * 2 ^ 20 +
    gradeEncoders f.grade * 2 ^ 32 + gradePorts f.grade * 2 ^ 36))
  let s4 := (s3.setField 0 0x50000 4 1 s3.sites.length).setField 0 0x50000 15 5 (96 * s3.sites.length)
  let s5 := ((s4.setField 0 0x1000 14 14 (if f.enrolled then 1 else 0)).setField 0 0x1008 49 43 (ones f.rollback.toNat 64)).setField 0 0x1018 39 30 f.spoilt
  let s6 := s5.setDigest 0x10C0 (if f.enrolled then beBytes 64 f.owner.toNat else List.replicate 64 0)
  let s7 := (List.range 24).foldl (fun (u : State) p => u.setField 0 (pstat p) 16 16 (gradePorts f.grade / 2 ^ p % 2)) s6
  let full := if f.usedHistory.length = 16 then 1 else 0
  (List.range 16).foldl (fun (u : State) i =>
    let b : BitVec 8 := mget 0 f.history i
    let c := b.toNat % 16
    u.setReg 0 (0x90100 + 8 * i) (BitVec.ofNat 64 ((if 5 < c then 15 else c) + b.toNat / 16 * 16 +
      (if s.power.fresh.getLsbD i then 2 ^ 8 else 0) + full * 2 ^ 9))) s7

/-! ### Off and on -/

/-- The module without its rails (R450): the fuses, the pin PERST# and the power stage stay, and what has been sent outside. -/
def State.unpowered (s : State) : State :=
  { State.reset with
    pending := s.pending
    free := s.free
    out := s.out
    boot := { fuses := s.boot.fuses, perst := s.boot.perst }
    power := s.power }

/-- A shutdown: PWRGD falls before the first rail does, the rails are to fall, a shorted one at once, and a recorded cause holds the module
off (R447, R449, R452).  `cut` is as for `Fuses.record`. -/
def State.shutdown (s : State) (cause : Option (Nat × Nat)) (cut : Option Nat) : State :=
  let f := match cause with | some c => s.boot.fuses.record c.1 c.2 cut | none => s.boot.fuses
  let s1 := { s with boot := { s.boot with fuses := f } }.unpowered
  { s1 with power := { s1.power with
      good := false
      rising := false
      reversed := false
      rails := match cause with | some (3, r) => s.power.rails.filter (fun x => x != r) | _ => s.power.rails
      fired := []
      limited := false
      thermalAt := none
      capAt := none
      lost := s.power.lost || cause.isNone
      latched := s.power.latched ++ (cause.map (fun c => [c.1])).getD [] } }

/-- Whether the PSC drives the rails: they are up or coming up. -/
def State.railsOn (s : State) : Bool := s.power.good || s.power.rising

/-- Whether a shutdown cause can be detected: the module runs or comes up, or its rails have not fallen (R449, R451). -/
def State.canTrip (s : State) : Bool := s.railsOn || !s.power.rails.isEmpty

/-- PWR_FAULT# is asserted while a latched shutdown holds the module off; not on a reversed input, which does not power the PSC (R447,
R457). -/
def State.powerFaultPin (s : State) : Bool := !s.railsOn && !s.power.reversed && !s.power.latched.isEmpty

/-- Every rail is in regulation by the time the boot ROM starts (R451). -/
def State.railsUp (s : State) : State :=
  if s.power.rising then { s with power := { s.power with rails := railOrder, good := true, rising := false } } else s

/-- A power-up: the history is read, the rails begin to rise, and registers whose reset value is fused show the fuses; a cold boot is due
(R363, R367, R448, R451).  `gone` says that the input had been removed. -/
def State.powerUp (s : State) (gone : Bool) : State :=
  let f := s.boot.fuses
  let old : BitVec 16 := if gone then 0 else s.power.fresh
  let s1 := s.unpowered
  State.showFuses { s1 with
    boot := { s1.boot with fuses := f.report, active := true }
    power := { rising := true, fresh := f.unreported.foldl (fun m i => m ||| BitVec.ofNat 16 (2 ^ i)) old, tell := true } }

/-! ### Warm boots (R364, R367, R384) -/

/-- The boot source registers (R396). -/
def bootSources : List Nat := [0x1200, 0x1208, 0x1210, 0x1218, 0x1220, 0x1228]

/-- The registers that a warm boot keeps: the boot sources and CNT_UNAVAIL (R367). -/
def State.retainedRegs (s : State) : Map W64 :=
  (bootSources ++ [0x80020]).foldl (fun (m : Map W64) o => mset (regReset o) m o (s.reg 0 o)) []

/-- What a warm boot leaves of the device: the functions are withdrawn, every plan stops without a commit, every port is idle, every key
is destroyed, and only the retained record, the fuses, the clock and the memory contents that the scrub is to erase stay. -/
def State.warmReset (s : State) : State :=
  State.showFuses { State.reset with
    pending := s.pending
    free := s.free
    out := s.out
    regs := s.retainedRegs
    tiles := s.tiles.map (fun (p : Nat × Tile) => (p.1, { Tile.reset with larder := p.2.larder }))
    clk := { s.clk with
      op := 0
      opPend := none
      opOwner := 0
      offset := 0
      units := []
      regions := s.clk.regions.map (fun (p : Nat × Region) =>
        (p.1, { fenced := p.2.fenced, spareRows := p.2.spareRows, spareTileRow := p.2.spareTileRow, repairSlots := p.2.repairSlots })) }
    mem := { cellar := s.mem.cellar, marks := s.mem.marks, stale := ((s.ctxs.map (·.1)).foldl State.leaveCipher s).mem.stale, sites := s.mem.sites.map (fun (p : Nat × Site) => (p.1, { retired := p.2.retired })) }
    link := { cables := s.link.cables }
    faults := { repairs := s.faults.repairs, pendingRows := s.faults.pendingRows }
    boot := { fuses := s.boot.fuses, perst := s.boot.perst, trigger := s.boot.trigger, cause := s.boot.cause }
    power := { s.power with thermalAt := none, capAt := none } }

/-- PERST# is asserted: the functions are withdrawn, every plan stops without a commit and every port is electrically idle, but the boot
that begins at its deassertion is yet to reset the protection set-up with its lock, the registers and a control-core fault (R363, R364, R380,
R396, R460). -/
def State.withdraw (s : State) : State :=
  let s1 := s.warmReset
  let s2 := { s1 with
    regs := s.regs
    clk := { s1.clk with op := s.clk.op, opOwner := s.clk.opOwner }
    link := { s1.link with slice := s.link.slice, stores := s.link.stores, pairing := s.link.pairing, identity := s.link.identity }
    faults := { s1.faults with coreFault := s.faults.coreFault }
    host := { s1.host with ports := s.host.ports }
    boot := { s.boot with presented := false, fetching := none, link := none, spdm := s.boot.spdm.filter (fun x => x.1 == 8) }
    power := s.power }
  (List.range 24).foldl (fun (u : State) p => u.setField 0 (pstat p) 3 0 psDisabled) s2

/-- The trigger of a warm boot: a boot that it restarts is counted from its own trigger if it was a warm one (R363, R418). -/
def State.warmBoot (s : State) (cause : Nat) : State :=
  let s1 := s.warmReset
  let from_ := if s.boot.active ∧ s.boot.cause ≠ 0 then s.boot.trigger else s.clk.tick
  ({ s1 with boot := { s1.boot with active := true, cause := cause, trigger := from_ } }).setField 0 0x1000 16 15 cause

/-! ### Control-core faults (R435) -/

/-- Firmware runs: the lock is set and no control-core fault has stopped it. -/
def State.firmwareRuns (s : State) : Bool := s.power.good && s.boot.presented && !s.faults.coreFault

/-- A control-core fault: CORE_FAULT is recorded, every plan stops at the next slot boundary, and fetching and completion stop.  In domain
mode the fault message goes out when the device enters recovery there (R427). -/
def State.controlFault (s : State) (core kind : Nat) : State :=
  let s1 := s.functions.foldl (fun (u : State) f => u.status f 0x60000 3) s
  let s2 := s1.eventAll 0x0106 .device core kind
  let s3 := s2.units.foldl (fun (u : State) k => (u.setUnit k { u.unit k with stopAsked := true }).failSteps k 7) s2
  { s3 with faults := { s3.faults with coreFault := true } }

/-! ### The owner of the operating point, and its requests (R182, R185, R464) -/

/-- BEAT_OP.OWNER of a function (R192). -/
def State.isOwner (s : State) (fn : Nat) : Bool := s.domainMode || fn == s.clk.opOwner

/-- OP_LOWER_REQUEST with its cause: 1 power, 2 thermal, 3 slip. -/
def State.lowerRequest (s : State) (cause : Nat) : State := s.eventAll 0x0208 .device cause 0

/-- Set a bit of PWR_STATUS in every function's copy (R464). -/
def State.powerStatus (s : State) (bit : Nat) : State := (List.range 8).foldl (fun (u : State) f => u.status f 0x90000 bit) s

/-- ALERT# (R460). -/
def State.alertPin (s : State) : Bool :=
  s.power.good && (s.faults.coreFault ||
    ((List.range s.nparts).filter s.isOwner).any (fun f => (s.reg f 0x90000 &&& s.reg 0 0x90010 &&& 0x1FF#64) != 0))

/-! ### Repair fuses (R59, R72, R382, R383) -/

/-- The parts of an entry. -/
def entryTile (e : W64) : Nat := getBits e 5 0 + 64 * getBits e 11 6
def entryKind (e : W64) : Nat := getBits e 13 12
def entryRow (e : W64) : Nat := getBits e 21 14
def entryBank (e : W64) : Nat := getBits e 25 22
def entryRegion (e : W64) : Nat := regionOfTile (entryTile e)

/-- A region as the repair fuses leave it: every used slot of kind 0 or 1 counts, and a valid entry has its spare in use. -/
def Fuses.region (f : Fuses) (r : Nat) : Region :=
  let mine := f.slots.filter (fun x => decide (entryKind x.entry < 2) && entryRegion x.entry == r)
  let ok := mine.filter (·.valid)
  { spareRows := (ok.filter (fun x => entryKind x.entry == 0)).map (fun x => entryTile x.entry)
    spareTileRow := ok.any (fun x => entryKind x.entry == 1)
    repairSlots := mine.length }

/-- Whether a repair or retirement can take a slot, a spoilt slot counting as used: its spare is free and, for a repair, the region has one of
its four slots left (R58, R59, R72, R382). -/
def Fuses.canTake (f : Fuses) (e : W64) : Bool :=
  let r := f.region (entryRegion e)
  match entryKind e with
  | 0 => decide (r.repairSlots < 4) && !r.spareRows.contains (entryTile e)
  | 1 => decide (r.repairSlots < 4) && !r.spareTileRow
  | _ => decide ((f.slots.filter (fun x => entryKind x.entry == 2 && entryTile x.entry == entryTile e &&
      entryBank x.entry == entryBank e)).length < 4)

/-- Whether an entry is already fused. -/
def Fuses.fused (f : Fuses) (e : W64) : Bool := f.slots.any (fun x => x.valid && x.entry == e)

/-- What programming the repairs of a boot has done: the fuses, and how many were applied, failed and refused. -/
structure Programmed where
  fuses : Fuses
  applied : Nat
  failed : Nat
  refused : Nat
  /-- entries that are not fused -/
  left : List W64

/-- Program one entry; `bad` says that its slot fails its read-back twice and is spoilt (R383). -/
def Programmed.add (p : Programmed) (e : W64) (bad : Bool) : Programmed :=
  if p.fuses.fused e then p
  else if !p.fuses.canTake e then { p with refused := p.refused + 1, left := p.left ++ [e] }
  else
    let f := { p.fuses with slots := p.fuses.slots ++ [⟨e, !bad⟩] }
    if bad then { p with fuses := f, failed := p.failed + 1, left := p.left ++ [e] } else { p with fuses := f, applied := p.applied + 1 }

/-- Program a list of entries; `bad` names by position those whose slot is spoilt. -/
def programAll (f : Fuses) (es : List W64) (bad : List Nat) : Programmed :=
  (es.zipIdx).foldl (fun (p : Programmed) x => p.add x.1 (bad.contains x.2)) ⟨f, 0, 0, 0, []⟩

end Sys2Proof.Machine
end

