-- ==== Sys2Proof/Machine/Charter.lean ====
section
/-!
DEFINITION. The boot bundle: the firmware image's header and signature (R372, R373), the charter's layout and content (R375, R376), the
owner's enrolment (R378) and the certificate chain (R387, R388); and the first check of R370 that fails.
-/
namespace Sys2Proof.Machine

/-! ### Keys held in ROM -/

def romFirmwareHash : List Byte := beBytes 64 (Config.rom 0)
def romRootHash : List Byte := beBytes 64 (Config.rom 1)
def romDigest : List Byte := beBytes 64 (Config.rom 2)

/-! ### The firmware image -/

/-- The image header keeps R372, for an image of the length that the boot source gives. -/
def imageHeaderOk (f : List Byte) (bytes : Nat) : Bool :=
  f.take 4 == [0x4C#8, 0x4D#8, 0x46#8, 0x57#8] && fieldAt f 4 2 == 1 && fieldAt f 6 2 == 0 &&
  fieldAt f 8 8 == bytes && bytes % 4096 == 0 && decide (fieldAt f 0x10 1 ≤ 64) &&
  decide (fieldAt f 0x20 8 + 516 ≤ bytes) && fieldAt f 0x28 8 + 512 == bytes && fieldAt f 0x30 208 == 0

/-- The 516 key bytes that a header names. -/
def keyAt (f : List Byte) (o : Nat) : List Byte := (f.drop o).take 516

/-- A signature under a key of 516 bytes (R373). -/
def signedBy (key body sig : List Byte) : Bool := rsaVerify (key.take 512) (key.drop 512) sig body

def imageKey (f : List Byte) : List Byte := keyAt f (fieldAt f 0x20 8)
def imageBody (f : List Byte) : List Byte := f.take (fieldAt f 0x28 8)
def imageSig (f : List Byte) : List Byte := (f.drop (fieldAt f 0x28 8)).take 512
/-- The firmware digest. -/
def firmwareDigest (f : List Byte) : List Byte := sha512 (imageBody f)

/-! ### The charter -/

/-- A bit range of a charter field. -/
def chBits (c : List Byte) (o n hi lo : Nat) : Nat := bitsOf (fieldAt c o n) hi lo

def chNpart (c : List Byte) : Nat := fieldAt c 0x1C 1
def chLinks (c : List Byte) : Nat := fieldAt c 0x28 4
/-- Partition p's entry, its cellar ranges (base and size in GiB), and the other entries of the charter. -/
def chPart (p : Nat) : Nat := 0x100 + 64 * p
def chRange (c : List Byte) (p i : Nat) : Nat × Nat := (chBits c (chPart p + 4 * i) 4 10 0, chBits c (chPart p + 4 * i) 4 21 11)
def chShare (c : List Byte) (p : Nat) : Nat := fieldAt c (chPart p + 0x10) 1
def chKeys (c : List Byte) (p : Nat) : Nat × Nat := (fieldAt c (chPart p + 0x12) 2, fieldAt c (chPart p + 0x14) 2)
def chStore (c : List Byte) (p i : Nat) : Bool := chBits c (chPart p + 0x16) 1 i i == 1
def chVdec (n : Nat) : Nat := 0x300 + 16 * n
def chPair (p : Nat) : Nat := 0x400 + 80 * p
def chRepair (c : List Byte) (n : Nat) : W64 := BitVec.ofNat 64 (fieldAt c (0xB80 + 8 * n) 8)
def chOwnerKey (c : List Byte) : List Byte := keyAt c 0xE00
def chBody (c : List Byte) : List Byte := c.take 0x1E00
/-- The charter digest. -/
def charterDigest (c : List Byte) : List Byte := sha512 (chBody c)
/-- The partition that ENC_MAP gives engine e, if it marks it valid. -/
def chEncoder (c : List Byte) (e : Nat) : Option Nat :=
  if chBits c 0x1E 2 (4 * e + 3) (4 * e + 3) = 1 then some (chBits c 0x1E 2 (4 * e + 2) (4 * e)) else none
/-- The valid REPAIRS entries. -/
def chRepairs (c : List Byte) : List W64 := ((List.range 64).map (chRepair c)).filter (fun e => e.getLsbD 26)

/-- MAGIC, VERSION and the bytes and bits that R375 does not list. -/
def charterHeaderOk (c : List Byte) : Bool :=
  let z := fun (o n : Nat) => fieldAt c o n == 0
  c.take 4 == [0x4C#8, 0x4D#8, 0x43#8, 0x48#8] && fieldAt c 4 2 == 1 && decide (fieldAt c 6 2 ≤ 1) && z 0x24 4 && z 0x2C 0xD4 &&
  (List.range 8).all (fun p => z (chPart p + 0x17) 0x29 && decide (fieldAt c (chPart p + 0x11) 1 ≤ 1) &&
    decide (fieldAt c (chPart p + 0x16) 1 ≤ 3) && (List.range 4).all (fun i => chBits c (chPart p + 4 * i) 4 31 22 == 0)) &&
  (List.range 16).all (fun n => chBits c (chVdec n) 8 63 34 == 0 && chBits c (chVdec n + 8) 8 11 0 == 0) &&
  (List.range 24).all (fun p => z (chPair p + 3) 13) &&
  decide (chLinks c < 2 ^ 24) && (List.range 64).all (fun n => bitsOf (chRepair c n).toNat 63 27 == 0) && z 0xD80 0x80 && z 0x1004 0xDFC

/-- Capacity in GiB and sites of a module (R199). -/
def State.capGib (s : State) : Nat := 96 * s.sites.length

/-- The cellar ranges obey R206 in the layout that the partition count implies, and lie within the capacity. -/
def State.rangesOk (s : State) (c : List Byte) : Bool :=
  let n := chNpart c
  let half := s.capGib / 2
  let all := (List.range n).flatMap (fun p => (List.range 4).filterMap (fun i =>
    if (chRange c p i).2 = 0 then none else some (p, chRange c p i)))
  all.all (fun a => decide (a.2.1 + a.2.2 ≤ s.capGib) &&
    (n != 8 || (if a.1 % 2 = 0 then decide (a.2.1 + a.2.2 ≤ half) else decide (half ≤ a.2.1))) &&
    all.all (fun b => a.1 == b.1 || decide (a.2.1 + a.2.2 ≤ b.2.1) || decide (b.2.1 + b.2.2 ≤ a.2.1)))

/-- On every site the shares of the partitions with ranges there sum to at most 64; with one partition the share is 64 (R209, R376). -/
def sharesOk (c : List Byte) : Bool :=
  let n := chNpart c
  let has := fun (p : Nat) => (List.range 4).any (fun i => (chRange c p i).2 != 0)
  let sum := fun (l : List Nat) => ((l.filter has).map (chShare c)).foldl (· + ·) 0
  if n = 1 then chShare c 0 == 64
  else if n = 8 then decide (sum [0, 2, 4, 6] ≤ 64) && decide (sum [1, 3, 5, 7] ≤ 64)
  else decide (sum (List.range n) ≤ 64)

/-- Key ranges lie within the 1,024 slots, none is longer than 256, and no two overlap. -/
def keysOk (c : List Byte) : Bool :=
  let l := (List.range (chNpart c)).map (chKeys c)
  l.all (fun k => decide (k.1 + k.2 ≤ 1024) && decide (k.2 ≤ 256)) && !anyMeet' l
where
  /-- Whether two spans of a list share an element. -/
  anyMeet' : List (Nat × Nat) → Bool
    | [] => false
    | a :: r => r.any (fun b => a.2 != 0 && b.2 != 0 && decide (a.1 < b.1 + b.2) && decide (b.1 < a.1 + a.2)) || anyMeet' r

/-- Valid vault decoders obey R220. -/
def decodersOk (c : List Byte) : Bool :=
  let l := (List.range 16).filter (fun n => chBits c (chVdec n) 8 33 33 == 1)
  let span := fun (n : Nat) => (chBits c (chVdec n) 8 13 0, chBits c (chVdec n) 8 28 14)
  l.all (fun n => decide (1 ≤ (span n).2) && decide ((span n).2 ≤ 16384) && decide (chBits c (chVdec n) 8 31 29 < chNpart c)) &&
  decide ((l.map (fun n => (span n).2)).foldl (· + ·) 0 ≤ 16384) && !keysOk.anyMeet' (l.map span)

/-- A REPAIRS entry names an enabled region and a row in range. -/
def State.repairOk (s : State) (e : W64) : Bool :=
  s.enabled (entryRegion e) && (match entryKind e with
    | 0 => decide (entryRow e ≤ 32)
    | 1 => decide (entryRow e ≤ 7)
    | 2 => decide (entryRow e ≤ 191)
    | _ => false)

/-- The charter's content satisfies R376, and the entries of absent partitions are 0 (R375). -/
def State.charterContentOk (s : State) (c : List Byte) : Bool :=
  let n := chNpart c
  [1, 2, 4, 8].contains n && decide (fieldAt c 0x1D 1 < n) && chBits c 0x18 2 15 15 == 0 &&
  (List.range 8).all (fun p => decide (p < n) || fieldAt c (chPart p) 64 == 0) &&
  s.rangesOk c && sharesOk c && keysOk c && decodersOk c &&
  (List.range 2).all (fun i => decide (((List.range n).filter (fun p => chStore c p i)).length ≤ 1)) &&
  (List.range 24).all (fun p => chLinks c / 2 ^ p % 2 == 0 ||
    (s.field 0 0x18 59 36 / 2 ^ p % 2 == 1 && fieldAt c (chPair p) 2 != 0 && (!isStore p || decide (2 ^ 15 ≤ fieldAt c (chPair p) 2)))) &&
  (List.range 4).all (fun e => match chEncoder c e with
    | some p => decide (p < n) && s.field 0 0x18 35 32 / 2 ^ e % 2 == 1
    | none => true) &&
  (chRepairs c).all s.repairOk

/-- The owner hash as a value, and whether an enrolment with it is possible: every fuse already blown is a 1 bit of it (R378). -/
def ownerHash (c : List Byte) : BitVec 512 := BitVec.ofNat 512 (beNat (sha512 (chOwnerKey c)))

/-- ENROL is requested and the module can be enrolled with the charter's key. -/
def State.canEnrol (s : State) (c : List Byte) : Bool :=
  s.field 0 0x1200 2 2 == 1 && (s.boot.fuses.owner &&& ownerHash c) == s.boot.fuses.owner

/-! ### The certificate chain (R387, R388) -/

/-- The first DER item of a byte string: tag, contents, the whole item, and what follows. -/
def derItem (bs : List Byte) : Option (Byte × List Byte × List Byte × List Byte) :=
  let l0 := (bs.getD 1 0).toNat
  let hdr := if l0 < 128 then 2 else l0 - 126
  let len := if l0 < 128 then l0 else beNat ((bs.drop 2).take (l0 - 128))
  if l0 = 128 ∨ 132 < l0 ∨ bs.length < hdr + len then none
  else some (bs.headD 0, (bs.drop hdr).take len, bs.take (hdr + len), bs.drop (hdr + len))

/-- The items of a byte string, at most `n`: tags, contents and whole items. -/
def derItems (bs : List Byte) : Nat → List (Byte × List Byte × List Byte)
  | 0 => []
  | n + 1 => match derItem bs with
    | some (t, c, w, r) => (t, c, w) :: derItems r n
    | none => []

/-- A number in `n` big-endian bytes. -/
def derInt (n : Nat) (bs : List Byte) : Option (List Byte) :=
  if beNat bs < 256 ^ n then some (beBytes n (beNat bs)) else none

/-- One certificate: the signed bytes, the 516 bytes of its public key, and its signature. -/
structure Cert where
  body : List Byte
  key : List Byte
  sig : List Byte

/-- The 516 key bytes of a subject public key. -/
def derKey (spki : List Byte) : Option (List Byte) :=
  match derItems spki 2 with
  | [_, (0x03#8, bits, _)] =>
    match derItem (bits.drop 1) with
    | some (_, inner, _, _) =>
      match derItems inner 2 with
      | [(_, n, _), (_, e, _)] => do return (← derInt 512 n) ++ (← derInt 4 e)
      | _ => none
    | none => none
  | _ => none

/-- Read a DER certificate from the front of a byte string, and what follows. -/
def readCert (bs : List Byte) : Option (Cert × List Byte) :=
  match derItem bs with
  | some (_, inner, _, rest) =>
    match derItems inner 3 with
    | [(_, tbs, whole), _, (0x03#8, sig, _)] =>
      let fields := derItems tbs 8
      let fields := if fields.head?.map (·.1) = some 0xA0#8 then fields.drop 1 else fields
      match fields[5]? with
      | some (_, spki, _) => (derKey spki).map (fun k => (⟨whole, k, sig.drop 1⟩, rest))
      | none => none
    | _ => none
  | none => none

/-- The chain of root, product and identity certificates is accepted (R388). -/
def chainOk (chain identity : List Byte) : Bool :=
  match readCert chain with
  | some (root, r1) => match readCert r1 with
    | some (product, r2) => match readCert r2 with
      | some (ident, r3) =>
        r3.isEmpty && sha512 root.key == romRootHash && signedBy root.key root.body root.sig &&
        signedBy root.key product.body product.sig && signedBy product.key ident.body ident.sig && ident.key == identity
      | none => false
    | none => false
  | none => false

/-! ### The checks of R370 -/

def bfFetch : Nat := 0x01
def bfFuse : Nat := 0x0F

/-- The boot source registers name no possible bundle: FETCH (R369, R370, R396). -/
def State.sourceBad (s : State) : Bool :=
  let fw := s.field 0 0x1210 31 0
  decide (fw < 4096) || decide (2 ^ 26 < fw) || decide (16384 < s.field 0 0x1210 47 32) || s.field 0 0x1200 1 0 == 3 ||
  (s.field 0 0x1200 1 0 == 0 && s.field 0 0x1208 11 0 != 0) ||
  (s.field 0 0x1200 1 0 != 0 && s.field 0 0x1218 15 15 == 0)

/-- The first condition of a list that holds, with the step of R368 in progress and the code. -/
def firstFault (l : List (Bool × Nat × Nat)) : Option (Nat × Nat) := (l.find? (·.1)).map (·.2)

/-- The first check that fails, with the boot step in progress: image `f`, charter `c`, chain `x` (R370). -/
def State.bundleFault (s : State) (f c x : List Byte) : Option (Nat × Nat) :=
  let fu := s.boot.fuses
  let svn := fieldAt f 0x10 1
  let floor := fieldAt c 0x20 1
  if !imageHeaderOk f (s.field 0 0x1210 31 0) then some (4, 0x02)
  else firstFault [
    (sha512 (imageKey f) != romFirmwareHash, 4, 0x03),
    (!signedBy (imageKey f) (imageBody f) (imageSig f), 4, 0x04),
    (decide (svn < ones fu.rollback.toNat 64), 4, 0x05),
    (!charterHeaderOk c, 5, 0x06),
    (fieldAt c 8 8 != fu.serial, 5, 0x07),
    (!fu.enrolled && !s.canEnrol c, 5, 0x08),
    (fu.enrolled && fu.owner != ownerHash c, 5, 0x09),
    (!signedBy (chOwnerKey c) (chBody c) ((c.drop 0x1E00).take 512), 5, 0x0A),
    (!s.charterContentOk c, 5, 0x0B),
    (decide (fieldAt f 0x11 3 < fieldAt c 0x21 3), 5, 0x0C),
    (decide (svn < floor) || decide (64 < floor), 5, 0x0D),
    (!chainOk x fu.identity, 5, 0x0E)]

end Sys2Proof.Machine
end

