-- ==== Sys2Proof/Machine/Boot.lean ====
section
/-!
DEFINITION. The boot sequence (R363 to R385, R396, R417, R418) and control-core faults (R435).
-/
namespace Sys2Proof.Machine

/-! ### Steps 1 and 2: the fuses (R59, R382, R383) -/

/-- The regions as the fuses leave them, at a cold boot (R59, R383). -/
def State.fuseRegions (s : State) : State :=
  (List.range 64).foldl (fun (u : State) r => u.setRegion r (s.boot.fuses.region r)) s

/-- Bank rows that run on spare rows or are to be retired. -/
def bankRows (es : List W64) : List (Nat × Nat) :=
  (es.filter (fun e => entryKind e == 2)).map (fun e => (entryTile e * 16 + entryBank e, entryRow e))

def Fuses.validEntries (f : Fuses) : List W64 := (f.slots.filter (·.valid)).map (·.entry)

/-- Show a boot step and hold. -/
def State.bootStage (s : State) (n : Nat) : State := s.setField 0 0x1000 3 0 n

/-- Boot hold: the first failure is recorded and the device waits for GO (R370). -/
def State.bootHold (s : State) (step code : Nat) : State :=
  let s1 := (s.bootStage step).setField 0 0x1000 11 4 code
  { s1 with boot := { s1.boot with fetching := none } }.setField 0 0x1000 12 12 1

/-- The transfers of the boot ROM's own fetch. -/
def Incoming.bootFetch (i : Incoming) : Bool := i.load == some (0, 0, 0)

/-- Forget the boot ROM's store fetch. -/
def State.endFetch (s : State) : State :=
  { s with
    boot := { s.boot with fetching := none, link := none }
    link := { s.link with incoming := s.link.incoming.filter (fun i => !i.bootFetch) } }

/-- Step 3 fetches the bundle (R369): over CXL.io, or from a storage node, for which the ROM trains the store port afresh. -/
def State.beginFetch (s : State) : State :=
  let src := s.field 0 0x1200 1 0
  let s1 := s.endFetch
  if s.sourceBad then s1.bootHold 3 bfFetch
  else
    let s2 := { s1 with boot := { s1.boot with fetching := some s.clk.tick } }
    if src = 0 then s2
    else
      let p := 21 + src
      let s3 := s2.setLport p { msgOut := (s2.lport p).msgOut, intervalAt := s.clk.tick, fstart := (s2.lport p).fstart }
      let s4 := ((s3.setPstate p psDetect 0).setField 0 (pstat p) 15 12 15).setField 0 (plat p) 48 48 0
      { s4 with boot := { s4.boot with link := some p } }

/-- BOOT_ROM_START: the PLL locks or keeps its lock, the fuses are read, and a warm boot goes on to fetch while a cold one waits for GO
(R155, R363, R368, R369).  Where PERST# has been held since power-up the ROM starts all the same, and the boot stops until PERST# is
deasserted (R363, R451).  Frames are counted from the tick at which the PLL locks until a mark is seen: DESIGN CHOICE (R158; log entry 75). -/
def execBootRomStart (s0 : State) : Host.Outcome State Fault Refusal :=
  let s := s0.railsUp
  if s.power.good && s.boot.active && !s.boot.rom && s.boot.perst.isSome && !s.clk.locked then
    let s1 := { s with clk := { s.clk with locked := true, tick := 0, frame := 0, frameStart := 0 } }.fuseRegions.warmReset
    .next { s1 with boot := { s1.boot with active := true, trigger := 0 } }
  else if s.power.good && s.boot.active && !s.boot.rom && s.boot.perst.isNone then
    let cold := s.boot.cause == 0
    let s1 := if s.clk.locked then s else { s with clk := { s.clk with locked := true, tick := 0, frame := 0, frameStart := 0 } }
    let s2 := (if cold then s1.fuseRegions else s1).showFuses
    let rows := nub (bankRows (s2.boot.fuses.validEntries ++ s2.faults.repairs))
    let s3 := { s2 with
      boot := { s2.boot with rom := true, trigger := if cold then 0 else s2.boot.trigger }
      faults := { s2.faults with pendingRows := rows }
      link := { s2.link with identity := s2.boot.fuses.identity } }
    let s4 := s3.bootStage 3
    .next (if cold then s4.setField 0 0x1000 12 12 1 else s4.beginFetch)
  else .next s0

/-- Whether the boot function is presented, and takes register writes: from the trigger until the lock, but not while PERST# holds the boot
(R363, R366, R396). -/
def State.bootFunction (s : State) : Bool := s.power.good && s.boot.active && !s.boot.presented && s.boot.perst.isNone

/-- BOOT_PORT_SWITCH: CA has not trained within 1 s (R366). -/
def execBootPortSwitch (s : State) : Host.Outcome State Fault Refusal :=
  if s.bootFunction && s.boot.port == 0 && s.field 0 (portReg 0) 0 0 == 0 then
    let s1 := s.advanceTo (s.boot.trigger + ticksPerSecond)
    .next { s1 with boot := { s1.boot with port := 1 } }
  else .next s

/-! ### Step 3: the boot sources and GO (R365, R369, R370, R396) -/

/-- A write of BOOT_CTL: SRC and ENROL are stored, and GO while WAITING restarts the boot from step 3. -/
def State.bootCtl (s : State) (v : W64) : State :=
  let s1 := (s.setField 0 0x1200 1 0 (getBits v 1 0)).setField 0 0x1200 2 2 (getBits v 2 2)
  if v.getLsbD 3 ∧ s.field 0 0x1000 12 12 = 1 ∧ s.boot.perst.isNone then
    (((s1.bootStage 3).setField 0 0x1000 11 4 0).setField 0 0x1000 12 12 0).beginFetch
  else s1

/-- The management port answers: the rails are up and the boot ROM has started since (R365, R461). -/
def State.mgmtRuns (s : State) : Bool := s.power.good && s.clk.locked

/-- BOOT_GO: a write of GO through the boot function, or through WRITE_BOOT on the management port (R369, R396). -/
def execBootGo (mgmt : Bool) (v : W64) (s : State) : Host.Outcome State Fault Refusal :=
  if v.getLsbD 3 && (if mgmt then s.mgmtRuns else s.bootFunction) then .next (s.bootCtl v) else .next s

/-- BOOT_FETCH_TIMEOUT: the bundle fetch has taken 1 s (R370). -/
def execBootFetchTimeout (s : State) : Host.Outcome State Fault Refusal :=
  match s.boot.fetching with
  | some t => .next ((s.advanceTo (t + ticksPerSecond)).bootHold 3 bfFetch)
  | none => .next s

/-! ### Step 6: the protection set-up (R20, R23, R25, R206, R209, R214, R220, R238, R261, R265, R359, R379) -/

/-- Write the protection set-up of a charter and an image. -/
def State.protect (s : State) (f c : List Byte) : State :=
  let n := chNpart c
  let s1 := (s.setField 0 0x20 15 0 (fieldAt c 0x18 2)).setField 0 0x40 1 1 (fieldAt c 6 2)
  let s2 := (s1.setReg 0 0x38 (BitVec.ofNat 64 (fieldAt f 0x11 7))).setDigest 0x80 (sha512 s1.boot.fuses.identity)
  let s3 := s2.setField 0 0x50000 0 0 (if n = 8 then 1 else 0)
  let dies := fun (p : Nat) => (2 ^ (8 / n) - 1) * 2 ^ (p * (8 / n))
  let encoders := fun (p : Nat) => if n = 1 then s.field 0 0x18 35 32
    else ((List.range 4).filter (fun e => chEncoder c e == some p)).foldl (fun a e => a + 2 ^ e) 0
  let part := fun (u : State) (p : Nat) =>
    let u1 := u.setReg p 0x28 (BitVec.ofNat 64 (n + p * 2 ^ 4 + dies p * 2 ^ 8))
    let u2 := (List.range 4).foldl (fun (w : State) i => w.setReg p (0x50008 + 8 * i)
      (BitVec.ofNat 64 ((chRange c p i).1 + (chRange c p i).2 * 2 ^ 11))) u1
    let u3 := u2.setReg p 0x50028 (BitVec.ofNat 64 (chShare c p % 2 ^ 7 + (chKeys c p).1 % 2 ^ 10 * 2 ^ 8 + (chKeys c p).2 % 2 ^ 9 * 2 ^ 18))
    let home := fieldAt c (chPart p + 0x11) 1
    let u4 := ((u3.setField p (portReg 0) 7 7 (if home = 0 then 1 else 0)).setField p (portReg 1) 7 7 (if home = 0 then 0 else 1))
    let u5 := ((u4.setField p (portReg 0) 8 8 (if home = 0 then 1 else 0)).setField p (portReg 1) 8 8 (if home = 0 then 0 else 1))
    u5.setField p 0x10018 5 2 (encoders p)
  let s4 := (List.range n).foldl part s3
  let s5 := (List.range n).foldl (fun (u : State) p => u.setReg p 0x30 (u.partShape p)) s4
  let s6 := (List.range 16).foldl (fun (u : State) d =>
    (u.setReg 0 (0x50C00 + 16 * d) (BitVec.ofNat 64 (fieldAt c (chVdec d) 8))).setReg 0 (0x50C08 + 16 * d)
      (BitVec.ofNat 64 (fieldAt c (chVdec d + 8) 8))) s5
  let s7 := (List.range 24).foldl (fun (u : State) p => u.setField 0 (pstat p) 17 17 (chLinks c / 2 ^ p % 2)) s6
  let s8 := ((s7.setField 0 0x1008 15 0 (fieldAt c 0x1A 2)).setField 0 0x1008 39 16 (chLinks c)).setField 0 0x1008 42 40 (fieldAt c 0x1D 1)
  let s9 := (s8.setField 0 0x1008 56 50 (fieldAt f 0x10 1)).setReg 0 0x1010 (BitVec.ofNat 64 (fieldAt c 0x10 8))
  let s10 := (s9.setDigest 0x1040 (charterDigest c)).setDigest 0x1080 (firmwareDigest f)
  let owner := fun (i : Nat) => (List.range n).find? (fun p => chStore c p i)
  { s10 with
    clk := { s10.clk with opOwner := fieldAt c 0x1D 1 }
    link := { s10.link with
      slice := fieldAt c 0x1A 2
      stores := ((List.range 2).filterMap (fun i => (owner i).map (fun p => (22 + i, p))))
      pairing := (List.range 24).filterMap (fun p => if chLinks c / 2 ^ p % 2 = 0 then none
        else some (p, Pairing.mk (fieldAt c (chPair p) 2) (fieldAt c (chPair p + 2) 1) ((c.drop (chPair p + 16)).take 64))) } }

/-! ### Step 7: the fuses (R374, R378, R382, R383) -/

/-- Blow the lowest unblown anti-rollback fuses, `n` of them. -/
def blowRollback (v : W64) : Nat → W64
  | 0 => v
  | n + 1 => match (List.range 64).find? (fun i => !v.getLsbD i) with
    | some i => blowRollback (v ||| BitVec.ofNat 64 (2 ^ i)) n
    | none => v

/-- The anti-rollback counter rises to the floor; `stop` says that only so many fuses are blown before one fails. -/
def Fuses.raiseRollback (f : Fuses) (floor : Nat) (stop : Option Nat) : Fuses :=
  let need := floor - ones f.rollback.toNat 64
  { f with rollback := blowRollback f.rollback (match stop with | some k => min k need | none => need) }

/-- The owner hash is blown and read back, and then ENROLLED; `stop` says that only the lowest so many bits are blown before one fails. -/
def Fuses.enrol (f : Fuses) (h : BitVec 512) (stop : Option Nat) : Fuses :=
  match stop with
  | none => { f with owner := f.owner ||| h, enrolled := true }
  | some k => { f with owner := f.owner ||| (h &&& BitVec.ofNat 512 (2 ^ k - 1)) }

/-- The repairs of the union of the retained record and the charter are programmed; a fence lasts until its repair is fused, and the region
of a slot that this boot spoils stays fenced (R383, R425).  `cut` says that the programming is interrupted at that entry, whose slot is left
spoilt (R449). -/
def State.programRepairs (s : State) (c : List Byte) (bad : List Nat) (cut : Option Nat) : State :=
  let before := s.boot.fuses
  let union := nub (s.faults.repairs ++ chRepairs c)
  let stop := match cut with | some n => n + 1 | none => union.length
  let p := programAll before (union.take stop) (bad ++ cut.toList)
  let keep := (p.left ++ union.drop stop).filter (fun e => s.faults.repairs.contains e)
  let s1 := { s with
    boot := { s.boot with fuses := p.fuses }
    faults := { s.faults with repairs := keep, pendingRows := nub (bankRows (p.fuses.validEntries ++ keep)) } }
  let s2 := (List.range 64).foldl (fun (u : State) r =>
    let g := p.fuses.region r
    let mine := keep.filter (fun e => decide (entryKind e < 2) && entryRegion e == r)
    let cleared := union.any (fun e => decide (entryKind e < 2) && entryRegion e == r && p.fuses.fused e &&
      (s.faults.repairs.contains e || !before.fused e)) && mine.isEmpty &&
      !((p.fuses.slots.drop before.slots.length).any (fun x => !x.valid && entryRegion x.entry == r))
    u.setRegion r { g with
      fenced := (s.region r).fenced && !cleared
      spareRows := g.spareRows ++ (mine.filter (fun e => entryKind e == 0)).map entryTile
      spareTileRow := g.spareTileRow || mine.any (fun e => entryKind e == 1)
      repairSlots := g.repairSlots + mine.length }) s1
  s2.setReg 0 0x1018 (BitVec.ofNat 64 (min p.applied 1023 + min p.failed 1023 * 2 ^ 10 + min p.refused 1023 * 2 ^ 20 +
    min p.fuses.spoilt 1023 * 2 ^ 30))

/-! ### Steps 8 and 9: the scrub and the lock (R78, R197, R205, R256, R368, R380) -/

/-- The scrub: every larder and the cellar read zero, and pages whose read-back had a symbol in error are retired. -/
def State.scrub (s : State) (pages : List (Nat × Nat)) : State :=
  let s1 := { s with tiles := [], clk := { s.clk with landings := [] }, mem := { s.mem with cellar := [], marks := [], stale := [] } }
  pages.foldl (fun (u : State) p => if u.sites.contains p.1 && decide (p.2 < pagesPerSite) then u.retirePage p.1 p.2 else u) s1

/-- Milliseconds, rounded up (R442). -/
def msUp (t : Nat) : Nat := (t + ticksPerMs - 1) / ticksPerMs

/-- The protection lock is set, runtime firmware starts, the partition functions are presented and every enabled port begins to train. -/
def State.lockBoot (s : State) : State :=
  let s1 := (s.bootStage 9).setField 0 0x1000 13 13 1
  let s2 := { s1.endFetch with boot := { s1.endFetch.boot with presented := true } }
  let s3 := s2.functions.foldl (fun (u : State) k => u.setUnit k { u.unit k with
    nextSlot := (s2.clk.tick - s2.clk.frameStart) / u.slotTicks k + 1
    landing := decide ((s2.clk.tick - s2.clk.frameStart) / u.slotTicks k + 1 = u.slotsPerFrame k) }) s2
  let s4 := (List.range 24).foldl (fun (u : State) p => u.startTraining p) s3
  let s5 := (List.range 2).foldl (fun (u : State) p => if u.field 0 (portReg p) 0 0 = 1 then u
    else { u with host := { u.host with ports := mset {} u.host.ports p { downAt := some u.clk.tick } } }) s4
  if s5.boot.cause = 0 then s5 else s5.bumpAt 0 0x80020 31 0 (msUp (s5.clk.tick - s5.boot.trigger))

/-- The bundle that a storage node has sent, when all of it has come (R369). -/
def State.storeBundle (s : State) : Option (List Byte) :=
  match s.link.incoming.find? Incoming.bootFetch with
  | some i => if crateCount i.len ≤ i.got then some (readBytes i.buf 0 i.len) else none
  | none => none

/-- What the fetch has brought: what the boot host gave, or what a storage node has sent; none while that is still on its way (R369). -/
def State.fetched (s : State) (bundle : Option (List Byte)) : Option (Option (List Byte)) :=
  match s.boot.link, bundle with
  | some _, some _ => s.storeBundle.map some
  | _, b => some b

/-- BOOT_BUNDLE_FETCHED: the bundle has come, or its fetch has failed; `bundle` is what the boot host gave, and of a bundle that a storage
node sends says only whether the source reported an error; `took` ticks pass until the boot holds or the functions are
presented.  `rb` and `en` say how far the anti-rollback and enrolment fuses are blown where one fails, `bad` which repair slots are spoilt,
`pages` which pages of which sites the scrub finds in error (R368, R370 to R380, R382, R383), and `cut` that a shutdown or PERST#, whose own
command follows, interrupts step 7 at an entry, so that the boot goes no further (R363, R449). -/
def execBootBundleFetched (bundle : Option (List Byte)) (took : Nat) (rb en : Option Nat) (bad : List Nat) (pages : List (Nat × Nat))
    (cut : Option Nat) (s0 : State) : Host.Outcome State Fault Refusal :=
  if s0.bootFunction && s0.boot.fetching.isSome then
    let s := s0.advanceTo (s0.clk.tick + took)
    let fw := s.field 0 0x1210 31 0
    match s.fetched bundle with
    | none => .next s0
    | some none => .next (s.bootHold 3 bfFetch)
    | some (some b) =>
      if s.sourceBad || b.length != fw + 8192 + s.field 0 0x1210 47 32 then .next (s.bootHold 3 bfFetch)
      else
        let f := b.take fw
        let c := (b.drop fw).take 8192
        let x := b.drop (fw + 8192)
        let s1 := { s with boot := { s.boot with firmware := f } }
        match s1.bundleFault f c x with
        | some e => .next (s1.bootHold e.1 e.2)
        | none =>
          let s2 := s1.protect f c
          let f1 := s2.boot.fuses.raiseRollback (fieldAt c 0x20 1) rb
          let raised := decide (fieldAt c 0x20 1 ≤ ones f1.rollback.toNat 64)
          let f2 := if f1.enrolled || !raised then f1 else f1.enrol (ownerHash c) en
          let s3 := { s2 with boot := { s2.boot with fuses := f2, chain := x } }
          if !raised || !f2.enrolled then .next (s3.showFuses.bootHold 7 bfFuse)
          else if cut.isSome then .next ((s3.programRepairs c bad cut).showFuses.bootStage 7).endFetch
          else .next (((s3.programRepairs c bad none).showFuses.scrub pages).lockBoot)
  else .next s0

/-! ### The end of the boot (R256, R368, R448) -/

/-- POWER_HISTORY: one event for each new slot, after the first boot of a power-up (R448, R463). -/
def State.tellHistory (s : State) : State :=
  let new := (List.range 16).filter (fun i => s.power.fresh.getLsbD i)
  if s.power.tell && !new.isEmpty then
    let s1 := { s with power := { s.power with tell := false } }.powerStatus 8
    new.foldl (fun (u : State) i => u.eventAll 0x0601 .device i (u.field 0 (0x90100 + 8 * i) 6 0)) s1
  else { s with power := { s.power with tell := false } }

/-- BOOT_COMPLETE: training has finished on every port (R256, R368). -/
def execBootComplete (s : State) : Host.Outcome State Fault Refusal :=
  if s.boot.active && s.boot.presented && (List.range 24).all (fun p => !s.portUsable p || decide (psActive ≤ s.pstate p)) then
    let s1 := s.bootStage 0xA
    .next { s1 with boot := { s1.boot with active := false } }.tellHistory
  else .next s

/-! ### PERST# and the management port's boot commands (R363 to R365) -/

/-- PERST_ASSERT: the functions are withdrawn, the plans stop and the ports are idle; a boot in progress stops.  The registers, the lock among
them, wait for the reset of the next boot (R363, R364, R380). -/
def execPerstAssert (s : State) : Host.Outcome State Fault Refusal :=
  if s.boot.perst.isSome then .next s
  else if s.power.good then
    let s1 := if s.boot.rom then s.withdraw else s
    .next { s1 with boot := { s1.boot with perst := some s.clk.tick } }
  else .next { s with boot := { s.boot with perst := some 0 } }

/-- PERST_DEASSERT after `held` ticks: at 100 µs or more a warm boot begins, and so does one after a pulse of any length that has stopped a
boot; before the boot ROM's first start PERST# does nothing (R363, R451). -/
def execPerstDeassert (held : Nat) (s : State) : Host.Outcome State Fault Refusal :=
  match s.boot.perst with
  | none => .next s
  | some t =>
    let s1 := { s with boot := { s.boot with perst := none } }
    if s.power.good && s.clk.locked then
      let s2 := s1.advanceTo (t + held)
      .next (if s.boot.active ∨ 100 * ticksPerUs ≤ held then s2.warmBoot 1 else s2)
    else .next s1

/-- An answer of the management port. -/
def State.answer (s : State) (r : Reply) : State := s.emit (.response none r)

/-- WARM_BOOT on the management port: BUSY during a boot (R363, R365). -/
def execWarmBoot (s : State) : Host.Outcome State Fault Refusal :=
  if !s.mgmtRuns then .next s
  else if s.boot.active then .next (s.answer .busy)
  else .next ((s.answer .ok).warmBoot 2)

/-- READ_BOOT (R365). -/
def execReadBoot (s : State) : Host.Outcome State Fault Refusal :=
  if s.mgmtRuns then .next (s.answer (.bootRegs (s.reg 0 0x1000) (bootSources.map (s.reg 0)))) else .next s

/-- The writable bits of a boot source register. -/
def bootSourceMask (off : Nat) : W64 :=
  if off = 0x1200 then 0x7#64 else if off = 0x1210 then 0xFFFFFFFFFFFF#64 else if off = 0x1218 then 0xFFFF#64 else 0xFFFFFFFFFFFFFFFF#64

/-- WRITE_BOOT: one boot source register, at any time (R365, R396). -/
def execWriteBoot (off : Nat) (v : W64) (s : State) : Host.Outcome State Fault Refusal :=
  if s.mgmtRuns && off == 0x1200 then .next ((s.bootCtl v).answer .ok)
  else if s.mgmtRuns && bootSources.contains off then .next ((s.setReg 0 off (v &&& bootSourceMask off)).answer .ok)
  else if s.mgmtRuns then .next (s.answer .error)
  else .next s

/-! ### Control-core faults (R435) -/

/-- WATCHDOG_MISS: a core has not reported within 100 ms. -/
def execWatchdogMiss (core : Nat) (s : State) : Host.Outcome State Fault Refusal :=
  if s.firmwareRuns && decide (1 ≤ core) && decide (core ≤ 11) then .next (s.controlFault core 2) else .next s

/-- FIRMWARE_MEMORY_UE: an uncorrectable error in the firmware memory or a core's caches. -/
def execFirmwareMemoryUe (core : Nat) (s : State) : Host.Outcome State Fault Refusal :=
  if s.firmwareRuns && decide (1 ≤ core) && decide (core ≤ 11) then .next (s.controlFault core 1) else .next s

end Sys2Proof.Machine
end

