-- ==== Sys2Proof/Machine/ReqDescs.lean ====
section
/-!
DEFINITION. The request descriptors REQ_ADMIT, REQ_FEED and REQ_CANCEL (R306, R308, R311, R312, R317, R320, R413).
-/
namespace Sys2Proof.Machine

/-! ### AT_STEP (R312) -/

/-- Whether AT_STEP is not permitted: non-zero in partitioned mode; already passed in domain mode. -/
def State.atStepBad (s : State) (c at_ : Nat) : Bool :=
  if s.domainMode then decide (at_ ≤ (s.ctx c).steps) else at_ != 0

/-- Refuse with the lowest reason, else go on; one that a domain refuses for a passed AT_STEP raises TIMING_BREAK (R312). -/
def State.checkReq (s : State) (d : DescRef) (c : Nat) (l : List Nat) (go : State → State) : State :=
  match lowest l with
  | some r =>
    let s1 := s.refuse d r
    if r = rsAtStep ∧ s.domainMode = true then s1.raiseBreak (c / 256) .timingBreak else s1
  | none => go s

/-- The boundary a request descriptor applies at, as the number of the step after it (R312). -/
def State.applyStep (s : State) (c at_ : Nat) : Nat :=
  let x := s.ctx c
  if s.domainMode then at_ else if x.phase = .running then x.steps + 1 else x.steps

/-! ### REQ_ADMIT (R306, R308, R311, R312) -/

/-- An FP32 value that is neither a NaN nor infinite. -/
def finite32 (v : Nat) : Bool := v / 2 ^ 23 % 256 != 255

/-- The field checks of a request block (R312). -/
def blockOk (b : List Byte) : Bool :=
  let f := fieldAt b
  finite32 (f 0 4) && decide (f 4 2 ≤ 1024) && decide (f 0x0A 2 ≤ 1024) && finite32 (f 0x0C 4) && decide (f 0x0C 4 < 2 ^ 31) && f 0x0C 4 != 0 &&
  finite32 (f 0x10 4) && decide (f 0x14 2 ≤ 8) && zeroAt b 0x16 2 && f 0x40 8 % 4096 == 0 && zeroAt b 0x60 160

/-- A request block that asks for penalties: REP_PEN is not 1.0 or FREQ_PEN is not 0. -/
def blockPenalties (b : List Byte) : Bool := fieldAt b 0x0C 4 != 0x3F800000 || fieldAt b 0x10 4 % 2 ^ 31 != 0

/-- Live requests that count against the limit, and the limit (R308). -/
def State.liveCount (s : State) (fn : Nat) : Nat := ((s.ctxsOf fn).map (fun c => (s.ctx c).reqs.length)).foldl (· + ·) 0
def State.liveLimit (s : State) : Nat := if s.domainMode then 16384 else 2048 * (8 / s.nparts)

/-- Bytes of one input position of an engine (R312). -/
def Engine.posBytes (e : Engine) : Nat := if e.inRec = 0 then 4 else e.inRec

/-- Whether a REQ_ADMIT starts its context's plan (R312). -/
def State.admitStarts (s : State) (d : DescRef) : Bool := s.phaseOf d.ctxKey == .ready && !s.domainMode

/-- The reasons a REQ_ADMIT is refused for.  In domain recovery the context counts as RUNNING here, and where its plan or its weight set is
absent as EMPTY (R272, R273, R312). -/
def State.admitFaults (s : State) (d : DescRef) (b : List Byte) (found : List SymFault) : List Nat :=
  let c := d.ctxKey
  let x := s.ctx c
  let fl := d.opd 1 1
  let hatch := d.opd 7 1
  let inB := d.opd 24 4
  let maxPos := d.opd 28 4
  let aid := d.opd 4 2
  let ready := s.admitStarts d
  let stOkay := if s.domainMode then x.phase == .running && x.destroying.isNone && s.phaseOf c != .empty else s.phaseOf c == .ready || s.phaseOf c == .running
  let byEngine := match x.engine (d.opd 6 1) with
    | none => [rsEngine]
    | some e =>
      let n := inB / e.posBytes
      let spec := fl / 4 % 2 == 1
      let chain := x.chain (d.opd 6 1) 9
      let res := x.reservation e maxPos spec
      reasons [
        (decide (inB % e.posBytes ≠ 0) || !x.params.inFree (fieldAt b 0x40 8) (roundUp (8192 + (e.vocab + 7) / 8) 4096) ||
          !x.params.inFree (fieldAt b 0x48 8) inB ||
          (chain.any (·.result) && !x.params.inFree (fieldAt b 0x50 8) (fieldAt b 0x58 8)), rsGeometry),
        ((x.plan.map (fun p => p.engines.any (fun o => o.handover == some (d.opd 6 1)))).getD false || (spec && !e.spec) ||
          ((fieldAt b 0x38 8 != 0 || blockPenalties b) && !e.sample), rsEngine),
        (decide (e.maxPos < maxPos) || decide (maxPos < n) || decide (x.params.shelfCount < res), rsLength)]
  reasons [
    (!d.reservedOk [(0, 8), (8, 30), (40, 8)] || decide (8 ≤ fl) || d.opd 8 8 % 64 != 0 || inB == 0 || d.opd 36 2 == 0 ||
      (decide (4096 ≤ aid) && aid != 0xFFFF) || (decide (16 ≤ hatch) && hatch != 0xFF) || !blockOk b, rsGeometry),
    (!stOkay, rsState),
    (aid != 0xFFFF && ((x.currentSlot aid).isNone || x.removals.any (·.1 == aid)), rsAdapter),
    ((mfind x.reqs (d.opd 2 2)).isSome, rsReqId),
    (decide (s.liveLimit ≤ s.liveCount d.fn), rsLimit),
    (fl / 2 % 2 == 1 && (s.det || s.domainMode), rsDet),
    (s.atStepBad c (d.opd 40 8), rsAtStep)] ++
  (if x.plan.isSome && stOkay then byEngine else []) ++
  (if hatch = 0xFF then [] else s.hatchFault d.fn hatch c dirOut) ++
  (if ready then s.startFaults c false found else [])

/-- The request that a REQ_ADMIT makes. -/
def Ctx.newReq (x : Ctx) (d : DescRef) (b input mask : List Byte) : Req :=
  let fl := d.opd 1 1
  let f := fieldAt b
  let per := ((x.engine (d.opd 6 1)).map (·.posBytes)).getD 4
  let n := d.opd 24 4 / per
  { id := d.opd 2 2
    desc := some d
    phase := .queued
    order := x.seq
    woken := false
    first := d.opd 6 1
    engine := d.opd 6 1
    slot := none
    row := none
    reserved := 0
    live := false
    open_ := fl % 2 == 1
    approxP := fl / 2 % 2 == 1
    spec := fl / 4 % 2 == 1
    adapter := if d.opd 4 2 = 0xFFFF then none else some (d.opd 4 2)
    pin := none
    hatch := if d.opd 7 1 = 0xFF then none else some (d.opd 7 1)
    temp := BitVec.ofNat 32 (f 0 4)
    topK := f 4 2
    topP := f 6 2
    minP := f 8 2
    penWindow := f 0x0A 2
    repPen := BitVec.ofNat 32 (f 0x0C 4)
    freqPen := BitVec.ofNat 32 (f 0x10 4)
    stops := (List.range (f 0x14 2)).map (fun i => f (0x18 + 4 * i) 4)
    masked := f 0x38 8 != 0
    recBase := f 0x40 8
    inputBase := f 0x48 8
    outBase := f 0x50 8
    outBytes := f 0x58 8
    inputPos := n
    maxPos := d.opd 28 4
    maxNew := d.opd 32 4
    iterations := d.opd 36 2
    pos := 0
    curAddr := f 0x48 8
    curRec := per
    passStart := 0
    passLen := n
    passDone := 0
    feeding := false
    iter := 0
    firstStep := true
    root := none
    output := []
    generated := 0
    feeds := []
    final := false
    tree := none
    inTree := none
    count := 0
    last := false
    draw := {}
    cancelled := false
    stopped := false
    cancels := []
    effect := none
    finish := none
    nans := 0
    audit := if x.params.audited then sha512 (b ++ input ++ mask) else []
    auditIn := [] }

/-- REQ_ADMIT: `block`, `input` and `mask` are what the device reads from host memory (R312), and `found` the decoder findings of the read of
the staging list where it starts the plan (R201). -/
def execReqAdmit (fn q : Nat) (block input mask : List Byte) (found : List SymFault) (s : State) : Host.Outcome State Fault Refusal :=
  .next (s.execDesc fn q (opIs 0x20) (fun d s =>
    let c := d.ctxKey
    let b := hostRead block 256
    let starts := s.admitStarts d
    let faults := s.admitFaults d b found
    let s := if starts then s.readList c found else s
    let s0 := if starts ∧ lowest faults = some rsDet then s.noteDetRefusal c else s
    s0.checkReq d c faults (fun s => if starts ∧ s.markBad = true then s.completeOpen d stTimingBreak else
      let x := s.ctx c
      let v := ((x.engine (d.opd 6 1)).map (·.vocab)).getD 0
      let inp := hostRead input (d.opd 24 4)
      let msk := if fieldAt b 0x38 8 = 0 then [] else hostRead mask ((v + 7) / 8)
      let s1 := s.ctxWrite c (fieldAt b 0x48 8) inp
      let s2 := s1.ctxWrite c (fieldAt b 0x40 8) b
      let s3 := if msk.isEmpty then s2 else s2.ctxWrite c (fieldAt b 0x40 8 + 8192) msk
      let at_ := s.applyStep c (d.opd 40 8)
      let s4 := s3.modCtx c (fun x => { x with
        reqs := mput x.reqs (d.opd 2 2) (x.newReq d b inp msk)
        seq := x.seq + 1
        deferred := x.deferred ++ [(at_, .admission (d.opd 2 2))] })
      if starts then s4.scheduleStart c s4.startFrame (some d) else s4)))

/-! ### REQ_FEED (R311, R312, R317) -/

/-- Positions of a request that are committed or on their way to be: its input or feed in progress and its pending feeds. -/
def State.positionsUsed (s : State) (c : Nat) (r : Req) : Nat :=
  let inPass := if r.passDone < r.passLen then r.passStart + r.passLen else r.pos
  let waiting := r.feeds.map (·.positions)
  let later := (s.ctx c).deferred.map (fun p => match p.2 with | .feed q f _ => if q = r.id then f.positions else 0 | _ => 0)
  (waiting ++ later).foldl (· + ·) (max r.pos inPass)

/-- The reasons that every REQ_FEED shares. -/
def State.feedFaults (s : State) (d : DescRef) : List Nat :=
  let c := d.ctxKey
  let x := s.ctx c
  reasons [
    (!d.reservedOk [(0, 5), (8, 12), (24, 12), (40, 8)] || d.opd 1 1 == 0 || decide (3 < d.opd 1 1) || decide (2 ≤ d.opd 4 1) ||
      d.opd 24 8 % 64 != 0 || !x.params.inFree (d.opd 24 8) (d.opd 16 4), rsGeometry),
    (!s.ctxUsable c, rsState),
    ((match s.req c (d.opd 2 2) with | some r => r.phase == .retired | none => true), rsReqId),
    (s.atStepBad c (d.opd 40 8), rsAtStep)]

/-- Feed positions of `per` bytes each to a request, or refuse. -/
def State.feed (s : State) (d : DescRef) (data : Bool) (bytes : List Byte) : State :=
  let c := d.ctxKey
  let x := s.ctx c
  let more := match s.req c (d.opd 2 2) with
    | none => []
    | some r =>
      let inRec := ((x.engine r.first).map (·.inRec)).getD 0
      let per := if data then inRec else 4
      let n := d.opd 16 4 / max 1 per
      reasons [
        (decide (per = 0) || d.opd 16 4 == 0 || decide (d.opd 16 4 % max 1 per ≠ 0), rsGeometry),
        (decide (r.maxPos < s.positionsUsed c r + n), rsLength)]
  s.checkReq d c (s.feedFaults d ++ more) (fun s =>
    let bs := hostRead bytes (d.opd 16 4)
    let r := (x.reqs.find? (fun p => p.1 == d.opd 2 2)).map (·.2)
    let inRec := ((r.bind (fun r => x.engine r.first)).map (·.inRec)).getD 0
    let per := if data then inRec else 4
    let f : Feed := { desc := some d, data := data, dest := d.opd 24 8, positions := d.opd 16 4 / max 1 per, final := d.opd 4 1 % 2 == 1 }
    (s.ctxWrite c (d.opd 24 8) bs).modCtx c (fun x => { x with
      deferred := x.deferred ++ [(s.applyStep c (d.opd 40 8), .feed (d.opd 2 2) f bs)] }))

/-- REQ_FEED of TOKENS; a KIND that the table does not give is refused here (R312). -/
def execReqFeedTokens (fn q : Nat) (bytes : List Byte) (s : State) : Host.Outcome State Fault Refusal :=
  .next (s.execDesc fn q (fun bs => opIs 0x22 bs && opdByte bs 1 != 2 && opdByte bs 1 != 3) (fun d s => s.feed d false bytes))

/-- REQ_FEED of DATA (R312). -/
def execReqFeedData (fn q : Nat) (bytes : List Byte) (s : State) : Host.Outcome State Fault Refusal :=
  .next (s.execDesc fn q (fun bs => opIs 0x22 bs && opdByte bs 1 == 2) (fun d s => s.feed d true bytes))

/-- The nodes of a fed tree: token and parent (R317). -/
def treeNodes (bs : List Byte) : List (Nat × Nat) :=
  (List.range (fieldAt bs 0 1)).map (fun i => let v := fieldAt bs (8 + 4 * i) 4; (bitsOf v 19 0, bitsOf v 25 20))

/-- Whether a fed tree is well formed for an engine with SLOT_TOKENS (R317). -/
def treeOk (bs : List Byte) (slotTokens : Nat) : Bool :=
  let n := fieldAt bs 0 1
  let ns := treeNodes bs
  decide (1 ≤ n) && decide (n ≤ 64) && zeroAt bs 1 7 && bs.length == 8 + 4 * n && decide (n + 1 ≤ slotTokens) &&
  (List.range n).all (fun i =>
    decide ((ns.getD i (0, 0)).2 < i + 1) && bitsOf (fieldAt bs (8 + 4 * i) 4) 31 26 == 0 && decide (treeDepth ns 64 (i + 1) ≤ 16))

/-- REQ_FEED of a TREE (R312, R317). -/
def execReqFeedTree (fn q : Nat) (bytes : List Byte) (s : State) : Host.Outcome State Fault Refusal :=
  .next (s.execDesc fn q (fun bs => opIs 0x22 bs && opdByte bs 1 == 3) (fun d s =>
    let c := d.ctxKey
    let bs := hostRead bytes (d.opd 16 4)
    let more := match s.req c (d.opd 2 2) with
      | none => []
      | some r =>
        match ((s.ctx c).chain r.first 9).find? (·.decode) with
        | some e => reasons [(!e.spec || !e.sample, rsEngine), (!treeOk bs e.slotTokens, rsTree)]
        | none => [rsEngine]
    s.checkReq d c (s.feedFaults d ++ more) (fun s =>
      let t : Tree := { desc := some d, basePos := d.opd 32 4, nodes := treeNodes bs, final := d.opd 4 1 % 2 == 1 }
      (s.ctxWrite c (d.opd 24 8) bs).modCtx c (fun x => { x with
        deferred := x.deferred ++ [(s.applyStep c (d.opd 40 8), .tree (d.opd 2 2) t bs)] }))))

/-! ### REQ_CANCEL (R312, R320) -/

/-- The reasons a REQ_CANCEL is refused for. -/
def State.cancelFaults (s : State) (d : DescRef) : List Nat :=
  let c := d.ctxKey
  reasons [
    (!d.reservedOk [(0, 4), (40, 8)] || decide (2 ≤ d.opd 1 1), rsGeometry),
    (!s.ctxUsable c, rsState),
    (s.atStepBad c (d.opd 40 8), rsAtStep)]

/-- REQ_CANCEL of one request; a FLAGS value that the table does not give is refused here. -/
def execReqCancel (fn q : Nat) (s : State) : Host.Outcome State Fault Refusal :=
  .next (s.execDesc fn q (fun bs => opIs 0x21 bs && opdByte bs 1 != 1) (fun d s =>
    let c := d.ctxKey
    s.checkReq d c (s.cancelFaults d) (fun s =>
      match s.req c (d.opd 2 2) with
      | none => s.complete d stOk (2 ^ 64 - 1)
      | some r =>
        if r.phase = .retired then s.complete d stOk (r.effect.getD 0)
        else s.putReq c { r with cancelled := true, cancels := r.cancels ++ [(d, d.opd 40 8)] })))

/-- REQ_CANCEL with ALL: it waits for every live request whose cancel has not taken effect; where there is none, the result value is
not stated (log entry 36). -/
def execReqCancelAll (fn q : Nat) (s : State) : Host.Outcome State Fault Refusal :=
  .next (s.execDesc fn q (fun bs => opIs 0x21 bs && opdByte bs 1 == 1) (fun d s =>
    let c := d.ctxKey
    s.checkReq d c (s.cancelFaults d) (fun s =>
      let live := (s.ctx c).reqsBy (fun r => r.phase != .retired)
      let fresh := live.filter (·.effect.isNone)
      let on := if fresh.isEmpty then live else fresh
      if on.isEmpty then s.completeOpen d stOk
      else on.foldl (fun (u : State) r => u.putReq c { r with cancelled := true, cancels := r.cancels ++ [(d, d.opd 40 8)] }) s)))

end Sys2Proof.Machine
end

