-- ==== Sys2Proof/Machine/Checkpoints.lean ====
section
/-!
DEFINITION. CHECKPOINT and RESTORE (R405 to R410).
-/
namespace Sys2Proof.Machine

/-! ### CHECKPOINT (R406, R407) -/

/-- A swap of the context is in progress. -/
def State.swapBusy (s : State) (c : Nat) : Bool :=
  (s.ctx c).swap.isSome || (s.ctx c).loads.any (fun l => match l.kind with
    | .stage => true | .stageCommit => true | .direct => true | .weights => false | .plan => false | .adapter _ _ _ => false)

/-- The ranges that a checkpoint lists: context address and length. -/
def ckptAreas (bytes : List Byte) (n : Nat) : List (Nat × Nat) :=
  (List.range n).map (fun i => (fieldAt bytes (16 * i) 8, fieldAt bytes (16 * i + 8) 8))

/-- CHECKPOINT: `areas` is the list read from host memory (R406). -/
def execCheckpoint (fn q : Nat) (areas : List Byte) (s : State) : Host.Outcome State Fault Refusal :=
  .next (s.execDesc fn q (opIs 0x50) (fun d s =>
    let c := d.ctxKey
    let x := s.ctx c
    let kind := d.opd 1 1
    let n := d.opd 2 2
    let stage := d.opd 32 4 * 2 ^ 20
    let at_ := d.opd 40 8
    let l := ckptAreas (hostRead areas (16 * n)) n
    s.checkReq d c (reasons [
      (!d.reservedOk [(0, 36), (37, 11)] || (kind != 1 && kind != 3) || decide (64 < n) || d.opd 8 8 % 4096 != 0 || d.opd 24 8 % 4096 != 0 ||
        (kind == 3 && !s.vaultSpan fn (d.opd 8 8) (d.opd 37 3 * 2 ^ 20)) || (stage != 0 && !x.params.inFree (d.opd 24 8) stage) ||
        l.any (fun a => a.1 % 4096 != 0 || a.2 % 4096 != 0 || decide (x.params.extentBytes < a.1 + a.2)), rsGeometry),
      (s.phaseOf c != .running && s.phaseOf c != .ready, rsState),
      (s.swapBusy c || x.ckpt.isSome, rsBusy),
      (decide (2 ^ 20 < d.opd 4 4) || (s.domainMode && d.opd 4 4 == 0), rsStep),
      ((s.domainMode || at_ != 0) && x.phase == .running && decide (at_ ≤ x.steps), rsAtStep),
      ((s.hatchKey c).isNone, rsHatchKey)]) (fun s =>
        let k : Ckpt := { desc := d, step := if at_ = 0 then none else some (at_ - 1), voidSteps := d.opd 4 4, areas := l, voids := none, snap := 0,
                          released := false, resume := 0, captured := false, image := [], record := [] }
        s.modCtx c (fun x => { x with ckpt := some k }))))

/-- CHECKPOINT_SNAPSHOT: after the snapshot end mark the state is captured; for a context that is not running this happens at once
(R405, R407).  `faults` are the decoder findings of the reads (R201). -/
def execCheckpointSnapshot (c : Nat) (faults : List SymFault) (s : State) : Host.Outcome State Fault Refusal :=
  let running := (s.ctx c).phase == .running
  let s1 := match (s.ctx c).ckpt with
    | some k => if !running && k.voids.isNone then s.ckptBegin c ((s.ctx c).steps + 2 ^ 64 - 1) else s
    | none => s
  match (s1.ctx c).ckpt with
  | some k =>
    if k.voids.isNone || k.captured then .next s1
    else
      let (kd, s2) := s1.drawEntropy
      let (idd, s3) := s2.drawEntropy
      let (spans, s4) := s3.ckptReads c k.areas faults
      let k1 := { k with captured := true, image := s3.ckptImage c k.areas, recPages := s3.recordPages c k.areas, keyDraw := kd, idDraw := idd,
                         spans := spans, poison := k.poison || !spans.isEmpty,
                         live := (s3.ctx c).reqs.map (fun (p : Nat × Req) => (p.1, p.2.desc)), resume := if running then k.resume else (s3.ctx c).steps }
      let (k2, s5) := if running then (k1, s4) else s4.ckptTable c k1 faults
      .next (s5.modCtx c (fun x => { x with ckpt := some k2 }))
  | none => .next s1

/-- CHECKPOINT_STAGE_COPY_DONE: the plaintext copy stands in the staging area, and the barrier may end (R407); the copy carries the markers of
what it was made from (R202). -/
def execCheckpointStageCopyDone (c : Nat) (faults : List SymFault) (s : State) : Host.Outcome State Fault Refusal :=
  match (s.ctx c).ckpt with
  | some k =>
    if !k.captured || k.released || k.desc.opd 32 4 == 0 then .next s
    else
      let (bad, s0) := s.recordReads c k faults
      let head := 4096 * k.recPages
      let s1 := (s0.ctxWrite c (k.desc.opd 24 8) (s.ckptRecord c k ++ k.image)).markSpans c (k.desc.opd 24 8)
        ((if bad then [(0, head)] else []) ++ k.spans.map (fun p => (head + p.1, head + p.2)))
      .next (s1.modCtx c (fun x => { x with ckpt := some { k with released := true } }))
  | none => .next s

/-- The pages of a byte string. -/
def pageList (bs : List Byte) : List (List Byte) := (List.range (bs.length / 4096)).map (fun i => (bs.drop (4096 * i)).take 4096)

/-- The IV of page `i`, and the additional authenticated data (R408). -/
def ckptIv (i : Nat) : List Byte := beBytes 12 (i % 2 ^ 64 * 2 ^ 32)

/-- Write to the destination of a checkpoint: host memory, or raw in a decoder. -/
def State.ckptWrite (s : State) (d : DescRef) (off : Nat) (bs : List Byte) : State :=
  let a := d.opd 8 8 + off
  if d.opd 1 1 = 1 then s.toHost d.fn (.hostWrite a bs)
  else match s.vaultPlace d.fn a with
    | some p => s.emit (.vaultWrite (s.vaultPort p) (p.target + p.rel) bs)
    | none => s

/-- The checkpoint header but for its tag (R408). -/
def State.ckptHeader (s : State) (c : Nat) (k : Ckpt) (id : List Byte) (pages : Nat) (wrap : List Byte) : List Byte :=
  let x := s.ctx c
  [0x4C#8, 0x4D, 0x43, 0x4B] ++ leBytes 2 1 ++ leBytes 2 ((x.plan.map (·.variant)).getD 0) ++ id ++ leBytes 8 k.snap ++ leBytes 8 k.resume ++
    leBytes 8 pages ++ leBytes 4 (fieldAt k.record 16 4) ++ leBytes 4 k.areas.length ++ leBytes 8 x.params.shelfBase ++
    hostRead ((x.plan.map (·.digest)).getD []) 64 ++ hostRead ((x.weights.map (·.digest)).getD []) 64 ++ wrap ++
    leBytes 4 x.params.shelfPos ++ leBytes 4 x.params.shelfRec ++ leBytes 8 x.params.mapBase ++ List.replicate 3808 0

/-- The checkpoint's key and identifier (R408). -/
def Ckpt.key (k : Ckpt) : List Byte := beBytes 32 k.keyDraw
def Ckpt.ident (k : Ckpt) : List Byte := beBytes 16 k.idDraw

/-- The pages from number `first` on, encrypted, each with its tag (R408). -/
def Ckpt.sealed_ (k : Ckpt) (first : Nat) (bs : List Byte) : List (List Byte × List Byte) :=
  let pages := pageList bs
  (List.range pages.length).map (fun i => gcmEncrypt k.key (ckptIv (first + i)) (k.ident ++ leBytes 8 (first + i)) (pages.getD i []))

/-- The captured pages, shelf map, shelves and ranges, are written (R407). -/
def State.ckptPagesOut (s : State) (k : Ckpt) : State :=
  if k.written then s else s.ckptWrite k.desc (4096 * (1 + k.recPages)) ((k.sealed_ k.recPages k.image).flatMap (·.1))

/-- The tag table, the state record with its request table, and last the header are written, and CHECKPOINT completes with its length
(R407, R408). -/
def State.ckptFinish (s : State) (c : Nat) (k : Ckpt) : State :=
  let (ivd, s1) := s.drawEntropy
  let iv := beBytes 12 ivd
  let rec_ := k.sealed_ 0 k.record
  let all := rec_ ++ k.sealed_ k.recPages k.image
  let (wct, wtag) := gcmEncrypt ((s.hatchKey c).getD []) iv k.ident k.key
  let hdr := s.ckptHeader c k k.ident all.length (iv ++ wct ++ wtag ++ leBytes 4 0)
  let (_, htag) := gcmEncrypt k.key (List.replicate 12 0xFF) hdr []
  let s2 := s1.ckptWrite k.desc (4096 + 4096 * all.length) (padPage (all.flatMap (·.2)))
  let s3 := s2.ckptWrite k.desc 4096 (rec_.flatMap (·.1))
  let s4 := s3.ckptWrite k.desc 0 (hdr ++ htag)
  ((s4.modCtx c (fun x => { x with ckpt := none })).bump k.desc.fn 0xA0028 47).complete k.desc stOk (ckptBytes all.length)

/-- The captured pages of a staged checkpoint as the device reads them back from the staging area to encrypt them, under the decoder's findings
(R201, R407). -/
def State.readStaged (s : State) (c : Nat) (k : Ckpt) (faults : List SymFault) : Ckpt × State :=
  if k.desc.opd 32 4 = 0 ∨ k.written = true then (k, s)
  else
    let (bs, bad, s1) := s.hubRead c (k.desc.opd 24 8 + 4096 * k.recPages) k.image.length faults
    ({ k with image := bs, poison := k.poison || !bad.isEmpty }, s1)

/-- A checkpoint that holds poisoned data is not released: no header is written, so its destination holds nothing that RESTORE accepts, and it
completes with a free status that is not OK (R57, R202; log entry 77). -/
def State.ckptPoisoned (s : State) (c : Nat) (k : Ckpt) : State :=
  (s.modCtx c (fun x => { x with ckpt := none })).completeOpen k.desc (1 + k.desc.open_ 0 % 18)

/-- CHECKPOINT_WRITE_DONE: the encrypted write of the captured pages is complete, which ends a direct checkpoint's barrier; the request
table and the header follow once the resume step is known (R407).  Where poison came with what was captured, nothing goes out (R57, R202). -/
def execCheckpointWriteDone (c : Nat) (faults : List SymFault) (s : State) : Host.Outcome State Fault Refusal :=
  match (s.ctx c).ckpt with
  | some k0 =>
    let (k, s) := if !k0.captured || (k0.desc.opd 32 4 != 0 && !k0.released) then (k0, s) else s.readStaged c k0 faults
    let running := (s.ctx c).phase == .running
    let direct := k.desc.opd 32 4 == 0
    if !k.captured || (!direct && !k.released) then .next s
    else
      let s1 := if k.poison then s else s.ckptPagesOut k
      let k1 := { k with written := true }
      if k.record.isEmpty && running then .next (s1.modCtx c (fun x => { x with ckpt := some { k1 with released := true } }))
      else
        let (k2, s2) := if k.record.isEmpty then s1.ckptTable c { k1 with resume := (s.ctx c).steps } faults else (k1, s1)
        .next (if k2.poison then s2.ckptPoisoned c k2 else s2.ckptFinish c k2)
  | none => .next s

/-! ### RESTORE (R409, R410) -/

/-- What a state record holds of one request: its table entry, its request record, its inputs (R307), and the feeds and the tree that it has not
consumed. -/
structure ReqEntry where
  table : List Byte
  record : List Byte
  visit : List InputRun
  rerun : List InputRun
  feeds : List Feed
  tree : Option Tree
  deriving DecidableEq, Repr

/-- A state record: what it holds, in order. -/
structure StateRec where
  seed : Nat
  steps : Nat
  mapEntries : Nat
  areas : List (Nat × Nat)
  reqs : List ReqEntry
  /-- bytes of the record in whole pages -/
  bytes : Nat
  deriving DecidableEq, Repr

/-- Read the request table from offset `o`: each entry with its request record. -/
def readReqTable (bs : List Byte) (o : Nat) : Nat → List ReqEntry × Nat
  | 0 => ([], o)
  | n + 1 =>
    let len := fieldAt bs (o + 4352) 4
    let v := fieldAt bs (o + 4356) 4
    let w := fieldAt bs (o + 4360) 4
    let f := fieldAt bs (o + 4364) 4
    let t := fieldAt bs (o + 4368) 4
    let at_ := o + 4416 + len
    let fa := at_ + 21 * (v + w)
    let (r, e) := readReqTable bs (fa + 13 * f + t) n
    (⟨(bs.drop o).take 4352, (bs.drop (o + 4416)).take len, runsOf (bs.drop at_) v, runsOf (bs.drop (at_ + 21 * v)) w,
      feedsOf (bs.drop fa) f, treeOf ((bs.drop (fa + 13 * f)).take t)⟩ :: r, e)

def readStateRec (bs : List Byte) : StateRec :=
  let na := fieldAt bs 24 4
  let cur := fieldAt bs 20 4
  let o := 64 + 16 * na + 128 * cur
  let (rs, _) := readReqTable bs o (fieldAt bs 16 4)
  { seed := fieldAt bs 0 8, steps := fieldAt bs 8 8, mapEntries := fieldAt bs 28 4, areas := ckptAreas (bs.drop 64) na, reqs := rs, bytes := 4096 * fieldAt bs 32 4 }

/-- A request as its table entry and its record give it; it has no REQ_ADMIT, and its feeds no REQ_FEED (R410, R411). -/
def Ctx.readReq (x : Ctx) (q : ReqEntry) : Req :=
  let e := q.table
  let f := fieldAt e
  let b := q.record.take 256
  let fl := f 16 1
  let dig := (e.drop 128).take 64
  let slot := (x.adapters.find? (fun p => p.2.phase == .current && p.2.digest == dig)).map (·.1)
  let gen := f 104 4
  { id := f 0 2
    desc := none
    phase := ReqPhase.ofCode (f 2 1)
    order := f 20 4
    woken := fl / 64 % 2 == 1
    first := f 3 1
    engine := f 4 1
    slot := optOf (f 5 3)
    row := optOf (f 8 4)
    reserved := f 12 4
    live := false
    open_ := fl % 2 == 1
    approxP := fl / 2 % 2 == 1
    spec := fl / 4 % 2 == 1
    adapter := optOf (f 17 2)
    pin := if f 112 1 % 2 = 1 then slot.map (fun i => (i, (mget {} x.adapters i).gen)) else none
    pinDig := dig
    hatch := optOf (f 19 1)
    temp := BitVec.ofNat 32 (fieldAt b 0 4)
    topK := fieldAt b 4 2
    topP := fieldAt b 6 2
    minP := fieldAt b 8 2
    penWindow := fieldAt b 0x0A 2
    repPen := BitVec.ofNat 32 (fieldAt b 0x0C 4)
    freqPen := BitVec.ofNat 32 (fieldAt b 0x10 4)
    stops := (List.range (fieldAt b 0x14 2)).map (fun i => fieldAt b (0x18 + 4 * i) 4)
    masked := fieldAt b 0x38 8 != 0
    recBase := f 24 8
    inputBase := f 32 8
    outBase := f 40 8
    outBytes := f 48 8
    inputPos := f 56 4
    maxPos := f 60 4
    maxNew := f 64 4
    iterations := f 68 2
    pos := f 70 4
    curAddr := f 74 8
    curRec := f 82 4
    passStart := f 86 4
    passLen := f 90 4
    passDone := f 94 4
    feeding := fl / 16 % 2 == 1
    curFinal := fl / 128 % 2 == 1
    visit := q.visit
    rerun := q.rerun
    again := f 112 1 / 2 % 2 == 1
    iter := f 98 2
    firstStep := fl / 8 % 2 == 1
    root := optOf (f 100 4)
    output := (List.range (min gen 1024)).map (fun i => f (256 + 4 * i) 4)
    generated := gen
    feeds := q.feeds
    final := fl / 32 % 2 == 1
    tree := q.tree
    inTree := none
    count := 0
    last := false
    draw := {}
    cancelled := false
    stopped := false
    cancels := []
    effect := none
    finish := none
    nans := f 108 4
    audit := if x.params.audited then (e.drop 192).take 64 else []
    auditIn := [] }

/-- The pages of a checkpoint in plaintext, where every tag verifies. -/
def openPages (key id bs : List Byte) (n : Nat) : Option (List Byte) :=
  (List.range n).foldl (fun (a : Option (List Byte)) i =>
    match a with
    | none => none
    | some r =>
      let ct := (bs.drop (4096 + 4096 * i)).take 4096
      let tag := (bs.drop (4096 + 4096 * n + 16 * i)).take 16
      (gcmDecrypt key (ckptIv i) (id ++ leBytes 8 i) ct tag).map (fun p => r ++ p)) (some [])

/-- The valid entries of a shelf map: their shelves in ascending order. -/
def mapShelves (map : List Byte) (n : Nat) : List Nat :=
  let l := (List.range n).filterMap (fun i => let v := fieldAt map (8 * i) 8; if bitsOf v 24 24 = 1 then some (bitsOf v 23 0) else none)
  l.foldl (fun (a : List Nat) v => (a.filter (fun u => decide (u < v))) ++ [v] ++ (a.filter (fun u => decide (v < u)))) []

/-- Whether the geometry in a checkpoint's header differs from the context's (R409). -/
def State.headerBad (s : State) (c : Nat) (hdr : List Byte) : Bool :=
  let p := (s.ctx c).params
  fieldAt hdr 0x38 8 != p.shelfBase || fieldAt hdr 0x100 4 != p.shelfPos || fieldAt hdr 0x104 4 != p.shelfRec || fieldAt hdr 0x108 8 != p.mapBase

/-- Checks 3 to 5 of R409 as far as the header and the adapters' digests given decide them, in their order: none passes. -/
def State.restoreFails (s : State) (c : Nat) (d : DescRef) (hdr : List Byte) (digests : List (List Byte)) (more : Bool) : Option State :=
  let x := s.ctx c
  if (hdr.drop 0x40).take 64 ≠ (x.plan.map (·.digest)).getD [] then some (s.refuse d rsImage)
  else if some (fieldAt hdr 6 2) ≠ x.plan.map (·.variant) then some (s.completeOpen d stGrade)
  else if (hdr.drop 0x80).take 64 ≠ (x.weights.map (·.digest)).getD [] then some (s.refuse d rsLayout)
  else if digests.any (fun g => !(x.adapters.any (fun p => p.2.phase == .current && p.2.digest == g))) = true then some (s.refuse d rsAdapter)
  else if s.headerBad c hdr || more then some (s.refuse d rsGeometry)
  else none

/-- Whether what a checkpoint restores lies outside its places (R409). -/
def State.restoreBad (s : State) (c : Nat) (map : List Byte) (rc : StateRec) (shelves : List Nat) : Bool :=
  let p := (s.ctx c).params
  shelves.any (fun i => decide (p.shelfCount ≤ i)) ||
    ((List.range rc.mapEntries).any (fun i => decide (p.mapEntries ≤ i) && fieldAt map (8 * i) 8 != 0)) ||
    rc.reqs.any (fun r => !p.inFree (fieldAt r.table 24 8) r.record.length) || rc.areas.any (fun a => !p.inFree a.1 a.2)

/-- The state that a restore sets (R410).  A request that had retired and waited for records, which a checkpoint does not capture, has nothing
left to place and ends here (log entry 20). -/
def State.applyRestore (s : State) (c : Nat) (hdr pages : List Byte) (rc : StateRec) : State :=
  let x := s.ctx c
  let p := x.params
  let mapAt := rc.bytes
  let map := (pages.drop mapAt).take (8 * rc.mapEntries)
  let shelves := mapShelves map rc.mapEntries
  let shAt := mapAt + 4096 * pagesOf (8 * rc.mapEntries)
  let arAt := shAt + 131072 * shelves.length
  let reqs := rc.reqs.map x.readReq
  let s1 := (List.range shelves.length).foldl (fun (u : State) i =>
    u.ctxWrite c (p.shelfBase + 131072 * shelves.getD i 0) ((pages.drop (shAt + 131072 * i)).take 131072)) s
  let rowOwned := fun (i : Nat) => reqs.any (fun r => match r.row with | some w => i / max 1 x.rowEntries == w | none => false)
  let s2 := (List.range p.mapEntries).foldl (fun (u : State) i =>
    u.ctxWrite c (p.mapBase + 8 * i) (if rowOwned i then (map.drop (8 * i)).take 8 ++ List.replicate (8 - ((map.drop (8 * i)).take 8).length) 0
      else leBytes 8 0)) s1
  let (s3, _) := rc.areas.foldl (fun (r : State × Nat) a => (r.1.ctxWrite c a.1 ((pages.drop r.2).take a.2), r.2 + a.2)) (s2, arAt)
  let s4 := rc.reqs.foldl (fun (u : State) r => u.ctxWrite c (fieldAt r.table 24 8) r.record) s3
  s4.modCtx c (fun x => { x with
    params := { x.params with seed := BitVec.ofNat 64 rc.seed }
    steps := fieldAt hdr 0x20 8
    reqs := (reqs.filter (fun r => r.phase != .retired)).foldl (fun (m : Map Req) r => mput m r.id r) x.reqs
    seq := reqs.foldl (fun m r => max m (r.order + 1)) x.seq
    shelves := (List.range p.shelfCount).foldl (fun (m : Map Bool) i =>
      mput m i (shelves.contains i && (List.range rc.mapEntries).any (fun j =>
        rowOwned j && bitsOf (fieldAt map (8 * j) 8) 24 24 == 1 && bitsOf (fieldAt map (8 * j) 8) 23 0 == i))) [] })

/-- The pages of a raw vault read from SRC that no valid decoder of the partition holds, by number among those that cover `len` bytes. -/
def State.restoreGaps (s : State) (d : DescRef) (len : Nat) : List Nat :=
  if d.opd 1 1 = 3 then (List.range (max 1 (pagesOf len))).filter (fun i => !s.vaultSpan d.fn (d.opd 8 8 + 4096 * i) 4096) else []

/-- Whether a vault SRC names an offset that no valid decoder holds, for any partition: an unpopulated device address (R193, R194). -/
def State.restoreUnmapped (s : State) (d : DescRef) : Bool :=
  d.opd 1 1 == 3 && s.devAddr (2 ^ 48 + d.opd 8 8) == .unpopulated

/-- RESTORE: `data` is the checkpoint as read, `wrapped` the 64-byte key block (R409, R410), and `found` the decoder findings of the read of
the staging list for the plan start (R201).  Data that is not complete leaves the
descriptor waiting, unless what has come decides a check that precedes the time limit's.  A page of a vault source that lies in no decoder of
the partition is a failed page, whose data does not come (R220, R222). -/
def execRestore (fn q : Nat) (data wrapped : List Byte) (found : List SymFault) (s : State) : Host.Outcome State Fault Refusal :=
  .next (s.execDesc fn q (opIs 0x51) (fun d s =>
    let c := d.ctxKey
    let x := s.ctx c
    let kind := d.opd 1 1
    let gaps := s.restoreGaps d data.length
    let data := match gaps with | g :: _ => data.take (4096 * g) | [] => data
    let hdr := data.take 4096
    let n := fieldAt hdr 0x28 8
    if !d.reservedOk [(0, 2), (8, 20)] || (kind != 1 && kind != 3) || s.restoreUnmapped d then s.refuse d rsGeometry
    else if (s.hatchKey c).isNone then s.refuse d rsHatchKey
    else if s.phaseOf c != .ready || !x.reqs.isEmpty then s.refuse d rsState
    else
    let s := gaps.foldl (fun (u : State) i => u.failPage c none (d.opd 8 8 + 4096 * i) 4096) s
    let wait := s.modCtx c (fun x => { x with restores := x.restores ++ [d] })
    if data.length < 4096 then wait
    else if hdr.take 4 ≠ [0x4C#8, 0x4D, 0x43, 0x4B] ∨ fieldAt hdr 4 2 ≠ 1 then s.refuse d rsCheckpoint
    else
      let id := (hdr.drop 8).take 16
      let w := hostRead wrapped 64
      match gcmDecrypt ((s.hatchKey c).getD []) (w.take 12) id ((w.drop 12).take 32) ((w.drop 44).take 16) with
      | none => s.completeOpen d stDigest
      | some key =>
        if (gcmDecrypt key (List.replicate 12 0xFF) (hdr.take 0xFF0) [] (hdr.drop 0xFF0)).isNone then s.completeOpen d stDigest
        else if data.length < ckptBytes n then
          (s.restoreFails c d hdr [] false).getD wait
        else
          match openPages key id data n with
          | none => s.completeOpen d stDigest
          | some pages =>
            let rc := readStateRec pages
            let map := (pages.drop rc.bytes).take (8 * rc.mapEntries)
            let shelves := mapShelves map rc.mapEntries
            let digests := rc.reqs.filterMap (fun r => if fieldAt r.table 112 1 % 2 = 1 then some ((r.table.drop 128).take 64) else none)
            match s.restoreFails c d hdr digests (s.restoreBad c map rc shelves) with
            | some w => w
            | none =>
              let s1 := s.applyRestore c hdr pages rc
              if s.domainMode then s1.complete d stOk (fieldAt hdr 0x20 8)
              else
                let why := lowest (s1.startFaults c false found)
                let s := s.readList c found
                match why with
                | some r => (if r = rsDet then s.noteDetRefusal c else s).refuse d r
                | none =>
                  let s2 := s1.readList c found
                  if s.markBad then s.completeOpen d stTimingBreak else s2.scheduleStart c s2.startFrame (some d)))

/-- RESTORE_TIMEOUT: the data of the `n`-th RESTORE of a context that waits is incomplete after TIMEOUT_MS (R409). -/
def execRestoreTimeout (c n : Nat) (s : State) : Host.Outcome State Fault Refusal :=
  match (s.ctx c).restores[n]? with
  | some d =>
    .next (((s.advanceTo (d.start + d.opd 24 4 * ticksPerMs)).modCtx c (fun x => { x with
      restores := x.restores.filter (fun e => e.order != d.order) })).completeOpen d stShard)
  | none => .next s

end Sys2Proof.Machine
end

