-- ==== Sys2Proof/Machine/Hatches.lean ====
section
/-!
DEFINITION. Hatches, COPY and media encoding (R309, R342, R346 to R352, R354 to R360, R362).
-/
namespace Sys2Proof.Machine

/-! ### Enabling and disabling (R352, R362) -/

/-- The fields of HATCH_CFG that host software writes while EN is 0. -/
def State.storeHcfg (s : State) (fn h : Nat) (v : W64) : State :=
  ((s.setField fn (hcfg h) 1 1 (getBits v 1 1)).setField fn (hcfg h) 3 2 (getBits v 3 2)).setField fn (hcfg h) 8 4 (getBits v 8 4)

/-- Whether a function's TDISP state is RUN and IDE is active on its home port (R352). -/
def State.plainNow (s : State) (fn : Nat) : Bool :=
  let home := if s.field fn 0x10010 7 7 = 1 then 1 else 0
  s.field fn 0x10018 1 0 == 2 && s.field fn (0x10008 + 8 * home) 9 9 == 1

/-- HATCH_ENABLE: a write of EN = 1 (R352, R362).  A record of which slots were written before the hatch was disabled is written
again from its first byte. -/
def execHatchEnable (fn h : Nat) (v : W64) (lo : Bool) (s : State) : Host.Outcome State Fault Refusal :=
  if !(s.functions.contains fn) || decide (16 ≤ h) || !lo || !(v.getLsbD 0) || s.hatchOn fn h then .next s
  else
    let s1 := s.storeHcfg fn h v
    let k := getBits v 8 4
    let n := s1.slotCount fn h
    if k < 12 ∨ 26 < k ∨ n = 0 ∨ 64 * 2 ^ 30 < n * 2 ^ k then .next (s1.status fn 0x20000 3)
    else
      let s2 := ((s1.setField fn (hcfg h) 0 0 1).setField fn (hcfg h) 9 9 1).setField fn (hcfg h) 10 10 (if s1.plainNow fn then 1 else 0)
      let x := s2.hatch fn h
      .next ((s2.setField fn (hcfg h + 0x20) 23 0 0).setHatch fn h { x with owned := [], jobs := x.jobs.map (fun j => { j with written := [] }) })

/-- HATCH_DISABLE: a write of EN = 0 (R362). -/
def execHatchDisable (fn h : Nat) (v : W64) (lo : Bool) (s : State) : Host.Outcome State Fault Refusal :=
  if !(s.functions.contains fn) || decide (16 ≤ h) || !lo || v.getLsbD 0 then .next s
  else if s.hatchOn fn h then
    .next (((s.setField fn (hcfg h) 0 0 0).setField fn (hcfg h) 9 9 0).setHatch fn h { s.hatch fn h with owned := [] })
  else .next (s.storeHcfg fn h v)

/-! ### Filling slots (R348, R349, R352, R358) -/

/-- The bytes of the slot that a job writes next (R310, R358). -/
def HatchJob.slotData (j : HatchJob) (payload : Nat) : List Byte :=
  let k := j.written.length
  let bs := (j.data.drop (k * j.chunk payload)).take (j.chunk payload)
  let last := decide (j.slots payload ≤ k + 1)
  let header := fun (st flags frame : Nat) => leBytes 2 st ++ leBytes 1 flags ++ leBytes 5 0 ++ leBytes 8 frame ++ leBytes 4 bs.length ++ leBytes 12 0
  match j.kind with
  | .frame st n key => header st ((if key then 1 else 0) + (if last then 2 else 0)) n ++ bs
  | .close st => header st 4 0 ++ bs
  | _ => bs

/-- The IV and the additional authenticated data of a slot (R352). -/
def hatchIv (count h dir : Nat) : List Byte := beBytes 12 (count % 2 ^ 64 * 2 ^ 32 + h * 2 ^ 28 + dir * 2 ^ 27)
def hatchAad (slot h dir c : Nat) : List Byte := leBytes 8 slot ++ leBytes 1 h ++ leBytes 1 dir ++ leBytes 1 (c % 256) ++ leBytes 1 (c / 256) ++ leBytes 4 0

/-- A slot as it stands in host memory, with its COUNT: plain, or encrypted under the context's hatch key. -/
def State.sealSlot (s : State) (fn h c slot : Nat) (bs : List Byte) : List Byte × State :=
  if s.slotPlain fn h then (bs, s)
  else
    let n := mget 0 s.host.outCount c + 1
    let p := s.payloadBytes fn h
    let (ct, tag) := gcmEncrypt ((s.hatchKey c).getD []) (hatchIv n h dirOut) (hatchAad slot h dirOut c) (hostRead bs p)
    (ct ++ tag ++ leBytes 8 n ++ leBytes 1 (c % 256) ++ leBytes 1 (c / 256) ++ leBytes 6 0,
      { s with host := { s.host with outCount := mset 0 s.host.outCount c n } })

/-- Whether a job waits for the end of domain recovery: a record of the domain's context, one that has begun
included (R434; log entry 82). -/
def State.heldJob (s : State) (j : HatchJob) : Bool :=
  match j.kind, s.dom with
  | .record c _, some m => m.recovery && m.ctx == c
  | _, _ => false

/-- The producer whose turn it is: one that has begun, else output records, those that wait for the end of a recovery apart, then ENCODE, then
COPY (R349, R434). -/
def Hatch.turn (x : Hatch) (held : HatchJob → Bool) : Option (Nat × HatchJob) :=
  let first := fun (p : HatchJob → Bool) => findIdx? p x.jobs 0
  match first (fun j => !j.written.isEmpty) with
  | some j => some j
  | none => match first (fun j => (match j.kind with | .record _ _ => true | _ => false) && !held j) with
    | some j => some j
    | none => match first (·.framed) with
      | some j => some j
      | none => first (fun j => !held j)

/-- Hand slots back, each with its flag value: 2 DEVICE_FILLED, 3 POISONED (R348). -/
def State.handBack (s : State) (fn h : Nat) (slots : List (Nat × Nat)) : State :=
  let s1 := slots.foldl (fun (u : State) i => u.toHost fn (.hatchFlag fn h i.1 i.2)) s
  let s2 := s1.setHatch fn h { s1.hatch fn h with owned := (s1.hatch fn h).owned.filter (fun i => !slots.any (fun p => p.1 == i)) }
  if slots.any (fun p => p.2 == 3) then s2.status fn 0x20000 1 else s2

/-! ### Encode streams (R355 to R358) -/

def State.stream (s : State) (fn st : Nat) : Option Stream := mfind s.host.streams (fn * 32 + st)
def State.putStream (s : State) (fn st : Nat) (x : Stream) : State :=
  { s with host := { s.host with streams := mput s.host.streams (fn * 32 + st) x } }

/-- A CLOSE whose stream has no FRAMES left writes its END_OF_STREAM slot. -/
def State.closeIfIdle (s : State) (fn st : Nat) : State :=
  match s.stream fn st with
  | some x =>
    if x.closing.isSome && x.frames.isEmpty && !x.busy then
      let h := s.hatch fn x.hatch
      (s.putStream fn st { x with busy := true }).setHatch fn x.hatch { h with jobs := h.jobs ++ [⟨.close st, x.ctx, [], [], []⟩] }
    else s
  | none => s

/-- A frame's slots have been handed back (R357, R358). -/
def State.frameDone (s : State) (fn st : Nat) (bytes : Nat) (poison : Bool) : State :=
  match s.stream fn st with
  | some x =>
    let x1 := { x with next := x.next + 1, busy := false, needKey := poison }
    match x.frames with
    | f :: fs =>
      let f1 := { f with done := f.done + 1, bytes := f.bytes + bytes }
      if f1.count ≤ f1.done then ((s.putStream fn st { x1 with frames := fs }).closeIfIdle fn st).complete f.desc stOk f1.bytes
      else s.putStream fn st { x1 with frames := f1 :: fs }
    | [] => (s.putStream fn st x1).closeIfIdle fn st
  | none => s

/-- The END_OF_STREAM slot has been handed back: the handle is free (R357). -/
def State.streamClosed (s : State) (fn st : Nat) : State :=
  match s.stream fn st with
  | some x =>
    let s1 := { s with host := { s.host with streams := mdel s.host.streams (fn * 32 + st) } }
    match x.closing with
    | some d => s1.complete d stOk x.next
    | none => s1
  | none => s

/-- All slots of a job have been written: they are handed back together (R349), those whose own data carried poison as POISONED (R348), and
what waited for them goes on. -/
def State.jobDone (s : State) (fn h : Nat) (j : HatchJob) : State :=
  let p := s.payloadBytes fn h
  let s1 := s.handBack fn h ((List.range j.written.length).map (fun i => (j.written.getD i 0, if j.badSlot p i then 3 else 2)))
  match j.kind with
  | .record c id => s1.settleReq c id
  | .frame st _ _ => s1.frameDone fn st j.data.length (!j.poison.isEmpty)
  | .close st => s1.streamClosed fn st
  | .copy d => s1.complete d stOk (j.written.headD 0)

/-- Whether a hatch has a slot to write now: its producer's turn has come, and slot NEXT is in DEVICE ownership.  A record that has begun waits
too while its domain recovers (R434). -/
def State.slotDue (s : State) (fn h : Nat) : Bool :=
  let x := s.hatch fn h
  match x.turn s.heldJob with
  | some (_, j) => !s.heldJob j && s.hatchOn fn h && x.owned.contains (s.nextSlotOf fn h) && (s.slotPlain fn h || (s.hatchKey j.ctx).isSome)
  | none => false

/-- Whether no hatch of the device with a lower class has a slot to write: writes that wait at the same moment go in class order (R337). -/
def State.firstHatch (s : State) (fn h : Nat) : Bool :=
  s.host.hatches.all (fun e => !s.slotDue (e.1 / 16) (e.1 % 16) ||
    decide (s.field fn (hcfg h) 3 2 ≤ s.field (e.1 / 16) (hcfg (e.1 % 16)) 3 2))

/-- Write the next slot of the producer whose turn it is, if one is due and no hatch of a lower class has one. -/
def State.placeSlot (s : State) (fn h : Nat) : State :=
  let x := s.hatch fn h
  match x.turn s.heldJob with
  | some (i, j) =>
    let slot := s.nextSlotOf fn h
    if !s.slotDue fn h || !s.firstHatch fn h then s
    else
      let p := s.payloadBytes fn h
      let (bytes, s1) := s.sealSlot fn h j.ctx slot (j.slotData p)
      let s2 := (s1.toHost fn (.hatchSlot fn h slot bytes)).setField fn (hcfg h + 0x20) 23 0 ((slot + 1) % max 1 (s.slotCount fn h))
      let j1 := { j with written := j.written ++ [slot] }
      if j.slots p ≤ j1.written.length then (s2.setHatch fn h { x with jobs := x.jobs.eraseIdx i }).jobDone fn h j1
      else s2.setHatch fn h { x with jobs := setAt x.jobs i j1 }
  | none => s

/-- OUTPUT_RECORD_PLACE: one slot of a hatch's next record, frame or copy is written (R309, R349). -/
def execOutputRecordPlace (fn h : Nat) (s : State) : Host.Outcome State Fault Refusal :=
  .next (if h < 16 then s.placeSlot fn h else s)

/-! ### Flags (R347, R351) -/

/-- The job that one of some slots was written for is given up there: its other slots go back POISONED, and it begins again, or, for a COPY,
ends (R351). -/
def State.abandonJob (s : State) (fn h : Nat) (slots : List Nat) : State :=
  let x := s.hatch fn h
  match findIdx? (fun (j : HatchJob) => j.written.any slots.contains) x.jobs 0 with
  | some (i, j) =>
    let s1 := s.handBack fn h ((j.written.filter (fun k => !slots.contains k)).map (fun k => (k, 3)))
    let y := s1.hatch fn h
    match j.kind with
    | .copy d => (s1.setHatch fn h { y with jobs := y.jobs.eraseIdx i }).completeOpen d stHatchOwner
    | _ => s1.setHatch fn h { y with jobs := setAt y.jobs i { j with written := [] } }
  | none => s

/-- Slots that the device held show another value in one read: each is counted and belongs to the host from then on, before what was being
written into them is given up (R351). -/
def State.slotViolations (s : State) (fn h : Nat) (slots : List Nat) : State :=
  if slots.isEmpty then s
  else
    let s1 := (s.bumpAt fn 0x20008 31 0 slots.length).status fn 0x20000 0
    let x := s1.hatch fn h
    let s2 := s1.setHatch fn h { x with owned := x.owned.filter (fun i => !slots.contains i) }
    slots.foldl (fun (u : State) _ => u.abandonJob fn h slots) s2

/-- HATCH_FLAG_REFRESH: the device reads a flag line again; `flags` are its bytes, one for each slot from 64 times the line on (R347,
R351); none is read while the function does not reach its host (R324). -/
def execHatchFlagRefresh (fn h line : Nat) (flags : List Byte) (s : State) : Host.Outcome State Fault Refusal :=
  if !(s.functions.contains fn) || decide (16 ≤ h) || !s.hatchOn fn h || !s.reachable fn then .next s
  else
    let n := s.slotCount fn h
    let x := s.hatch fn h
    let seen := (List.range 64).filterMap (fun i =>
      match flags[i]? with
      | some f => if 64 * line + i < n then some (64 * line + i, f) else none
      | none => none)
    let now := (seen.filter (fun p => p.2 == 1 && !x.owned.contains p.1)).map (·.1)
    let lost := (seen.filter (fun p => p.2 != 1 && x.owned.contains p.1)).map (·.1)
    .next ((s.setHatch fn h { x with owned := x.owned ++ now }).slotViolations fn h lost)

/-! ### COPY (R342, R350, R352) -/

/-- The data of an IN slot: none where its tag or COUNT fails, with the COUNT it carries. -/
def State.openSlot (s : State) (fn h c slot : Nat) (raw : List Byte) : Option (List Byte × Nat) :=
  if s.slotPlain fn h then some (raw, 0)
  else
    let p := s.payloadBytes fn h
    let n := fieldAt raw (p + 16) 8
    if n ≤ mget 0 (s.hatch fn h).lastIn c then none
    else (gcmDecrypt ((s.hatchKey c).getD []) (hatchIv n h dirIn) (hatchAad slot h dirIn c) (raw.take p) ((raw.drop p).take 16)).map (fun b => (b, n))

/-- The reasons a COPY is refused for. -/
def State.copyFaults (s : State) (d : DescRef) : List Nat :=
  let c := d.ctxKey
  let x := s.ctx c
  let sk := d.opd 1 1
  let dk := d.opd 2 1
  let h := d.opd 3 1
  let src := d.opd 8 8
  let dst := d.opd 16 8
  let n := d.opd 24 8
  let pair := [(1, 2), (2, 1), (2, 2), (3, 2), (2, 3)].contains (sk, dk)
  reasons [
    (!d.reservedOk [(0, 4), (8, 24)] || !pair || n == 0 || decide (2 ^ 36 < n) ||
      (sk == 2 && !(x.params.inFree src n || x.inStepArea src n)) || (dk == 2 && !x.params.inFree dst n) ||
      (sk == 2 && dk == 2 && spansMeet src n dst n) || (sk == 3 && decide (h < 16) && decide (s.payloadBytes d.fn h < n)), rsGeometry),
    (!s.ctxUsable c, rsState)] ++
  (if sk = 3 then s.hatchFault d.fn h c dirIn ++ reasons [(decide (h < 16) && decide (s.slotCount d.fn h ≤ src), rsHatch)]
   else if dk = 3 then s.hatchFault d.fn h c dirOut else [])

/-- COPY from an IN hatch slot. -/
def State.copyFromHatch (s : State) (d : DescRef) (raw : List Byte) : State :=
  let c := d.ctxKey
  let h := d.opd 3 1
  let slot := d.opd 8 8
  let fn := d.fn
  let give := fun (u : State) (flag : Nat) =>
    (u.toHost fn (.hatchFlag fn h slot flag)).setHatch fn h { u.hatch fn h with owned := (u.hatch fn h).owned.filter (fun i => i != slot) }
  if !(s.hatch fn h).owned.contains slot then s.completeOpen d stHatchOwner
  else
    match s.openSlot fn h c slot (hostRead raw (s.slotBytes fn h)) with
    | none => ((give s 3).status fn 0x20000 2).complete d stDigest slot
    | some (bs, n) =>
      let s1 := give (s.ctxWrite c (d.opd 16 8) (bs.take (d.opd 24 8))) 0
      let x := s1.hatch fn h
      (s1.setHatch fn h (if s.slotPlain fn h then x else { x with lastIn := mset 0 x.lastIn c n })).finish d stOk slot

/-- COPY: `data` is what a host source or an IN hatch slot holds, and `faults` what the decoders find in the transfers of a context source
(R342).  A copy to host memory that carries poison releases no byte (R57, R202); with which status it completes then is not stated, and a
free value chooses among those other than OK (log entry 69). -/
def execCopy (fn q : Nat) (data : List Byte) (faults : List SymFault) (s : State) : Host.Outcome State Fault Refusal :=
  .next (s.execDesc fn q (opIs 0x30) (fun d s =>
    s.check d (s.copyFaults d) (fun s =>
      let c := d.ctxKey
      let n := d.opd 24 8
      let src := d.opd 8 8
      let dst := d.opd 16 8
      match d.opd 1 1, d.opd 2 1 with
      | 1, _ => (s.ctxWrite c dst (hostRead data n)).finish d stOk 0
      | 3, _ => s.copyFromHatch d data
      | _, 1 =>
        let (bs, poison, s1) := s.hubRead c src n faults
        if poison.isEmpty then (s1.toHost fn (.hostWrite dst bs)).finish d stOk 0
        else
          s1.completeOpen d (1 + d.open_ 0 % 18)
      | _, 3 =>
        let (bs, poison, s1) := s.hubRead c src n faults
        let x := s1.hatch fn (d.opd 3 1)
        s1.setHatch fn (d.opd 3 1) { x with jobs := x.jobs ++ [⟨.copy d, c, bs, poison, []⟩] }
      | _, _ =>
        let (bs, poison, s1) := s.hubRead c src n faults
        ((s1.transferWrite c dst bs false).markSpans c dst poison).finish d stOk 0)))

/-! ### ENCODE (R354 to R360) -/

/-- The encode engines of a partition (R359). -/
def State.encoders (s : State) (fn : Nat) : List Nat :=
  (List.range 4).filter (fun e => (s.reg 0 0x18).getLsbD (32 + e) && (s.nparts == 1 || (s.reg fn 0x10018).getLsbD (2 + e)))

/-- An ENCODE from a partition without an engine completes ENGINE_ABSENT before any operand is checked (R360). -/
def State.encode (s : State) (d : DescRef) (go : State → State) : State :=
  if (s.encoders d.fn).isEmpty then (s.bump d.fn 0x80000 31).completeOpen d stEngineAbsent else go s

/-- The highest bit rate of level 5.2, in kbit/s: 60,000 in AV1's Main tier, 240,000 in HEVC's High tier.  PRESUMED: the numbers are those of the
published standards that R354 names (log entry 79). -/
def levelRate (codec : Nat) : Nat := if codec = 0 then 60000 else 240000

/-- Luma samples a second that one engine encodes. -/
def engineRate : Nat := 995328000

/-- Whether an engine has room for a stream of a rate beside those it carries (R355). -/
def State.engineRoom (s : State) (e num den : Nat) : Bool :=
  let on := (s.host.streams.map (·.2)).filter (fun x => x.engine == e)
  let (a, b) := on.foldl (fun (r : Nat × Nat) x => (r.1 * x.rateDen + x.rateNum * r.2, r.2 * x.rateDen)) (num, den)
  decide (on.length < 8) && decide (a ≤ engineRate * b)

/-- ENCODE with SUB 1, OPEN; a SUB that the table does not give is refused here (R357).  The bytes of RATE and MAX_RATE that a rate control does
not use are reserved (R271, R356; log entry 83). -/
def execEncodeOpen (fn q : Nat) (s : State) : Host.Outcome State Fault Refusal :=
  .next (s.execDesc fn q (fun bs => opIs 0x31 bs && opdByte bs 1 != 2 && opdByte bs 1 != 3) (fun d s => s.encode d (fun s =>
    let c := d.ctxKey
    let st := d.opd 2 2
    let w := d.opd 8 2
    let h := d.opd 10 2
    let num := w * h * d.opd 12 2
    let den := d.opd 14 2
    let params := decide (d.opd 4 1 ≤ 1) && (d.opd 5 1 == 8 || d.opd 5 1 == 10) && decide (d.opd 6 1 ≤ 2) && decide (d.opd 7 1 ≤ 2) &&
      decide (64 ≤ w) && decide (w ≤ 4096) && w % 8 == 0 && decide (64 ≤ h) && decide (h ≤ 2304) && h % 8 == 0 && decide (w * h ≤ 8912896) &&
      d.opd 12 2 != 0 && den != 0 && decide (d.opd 27 1 ≤ 2) && decide (num ≤ engineRate * den) &&
      (d.opd 6 1 == 0 || (decide (d.opd 16 4 ≤ levelRate (d.opd 4 1)) && decide (d.opd 20 4 ≤ levelRate (d.opd 4 1))))
    let unused := (d.opd 6 1 == 0 && d.opd 17 3 != 0) || (d.opd 6 1 != 2 && d.opd 20 4 != 0)
    let e := (s.encoders fn).find? (fun e => s.engineRoom e num (max 1 den))
    s.check d (reasons [
        (!d.reservedOk [(0, 28)] || d.opd 1 1 != 1 || decide (32 ≤ st) || unused, rsGeometry),
        (!s.ctxUsable c, rsState),
        ((s.stream fn st).isSome || !params || e.isNone, rsMedia)] ++ s.hatchFault fn (d.opd 26 1) c dirOut) (fun s =>
      let x : Stream := { ctx := c, engine := e.getD 0, codec := d.opd 4 1, depth := d.opd 5 1, rc := d.opd 6 1, gopMode := d.opd 7 1,
                          rate := d.opd 16 4, maxRate := d.opd 20 4, tileCols := d.opd 27 1, width := w, height := h, rateNum := num, rateDen := den,
                          keyInterval := d.opd 24 2, hatch := d.opd 26 1, frames := [], next := 0, needKey := false, busy := false, closing := none }
      (s.putStream fn st x).complete d stOk (e.getD 0)))))

/-- The QP of a stream with constant QP (R356). -/
def Stream.qp (x : Stream) : Option Nat := if x.rc = 0 then some (x.rate % 256) else none

/-- The bit rate of a CBR or VBR stream and the cap of a VBR stream, in kbit/s (R356). -/
def Stream.rates (x : Stream) : Option (Nat × Option Nat) :=
  if x.rc = 0 then none else some (x.rate, if x.rc = 2 then some x.maxRate else none)

/-- A sample of a frame's bytes: 8 bits in a byte, or 10 bits in bits [15:6] of two (R356). -/
def Stream.sampleAt (x : Stream) (frame : List Byte) (o : Nat) : Nat := if x.depth = 10 then fieldAt frame o 2 / 2 ^ 6 else fieldAt frame o 1

/-- The luma sample in column `i` of row `j` of a frame (R356). -/
def Stream.luma (x : Stream) (pitch : Nat) (frame : List Byte) (i j : Nat) : Nat :=
  x.sampleAt frame (pitch * j + (if x.depth = 10 then 2 else 1) * i)

/-- The Cb and Cr samples in column `i` of row `j` of a frame's chroma plane (R356). -/
def Stream.chroma (x : Stream) (pitch : Nat) (frame : List Byte) (i j : Nat) : Nat × Nat :=
  let n := if x.depth = 10 then 2 else 1
  let o := pitch * (x.height + j) + 2 * n * i
  (x.sampleAt frame o, x.sampleAt frame (o + n))

/-- ENCODE with SUB 2, FRAMES (R357). -/
def execEncodeFrames (fn q : Nat) (s : State) : Host.Outcome State Fault Refusal :=
  .next (s.execDesc fn q (fun bs => opIs 0x31 bs && opdByte bs 1 == 2) (fun d s => s.encode d (fun s =>
    let c := d.ctxKey
    let st := d.opd 2 2
    let after := d.opd 6 1 % 2 == 1
    let height := ((s.stream fn st).map (·.height)).getD 0
    s.check d (reasons [
        (!d.reservedOk [(0, 7), (8, 24)] || decide (32 ≤ st) || decide (4 ≤ d.opd 6 1) || d.opd 16 4 == 0 || d.opd 20 4 % 256 != 0 ||
          decide (2 * d.opd 24 8 < 3 * d.opd 20 4 * height), rsGeometry),
        (!s.ctxUsable c, rsState),
        (after && (s.req c (d.opd 4 2)).isNone, rsReqId),
        ((match s.stream fn st with | some x => x.closing.isSome | none => true), rsMedia),
        ((match s.stream fn st with
          | some x => s.hatchOn fn x.hatch && !s.slotPlain fn x.hatch && (s.hatchKey c).isNone
          | none => false), rsHatchKey)]) (fun s =>
      match s.stream fn st with
      | none => s
      | some x =>
        let f : FrameJob := { desc := d, ctx := c, after := if after then some (d.opd 4 2) else none, status := none,
                              forceKey := d.opd 6 1 / 2 % 2 == 1, src := d.opd 8 8, count := d.opd 16 4, pitch := d.opd 20 4, stride := d.opd 24 8,
                              done := 0, bytes := 0 }
        s.putStream fn st { x with frames := x.frames ++ [f] }))))

/-- ENCODE_FRAMES_RELEASE: the request that a stream's FRAMES waits for has completed (R357). -/
def execEncodeFramesRelease (fn st : Nat) (s : State) : Host.Outcome State Fault Refusal :=
  match s.stream fn st with
  | some x =>
    match findIdx? (fun (f : FrameJob) => match f.status with | some v => v != stOk | none => false) x.frames 0 with
    | some (i, f) => .next (((s.putStream fn st { x with frames := x.frames.eraseIdx i }).closeIfIdle fn st).completeOpen f.desc (f.status.getD stOk))
    | none =>
      match x.frames with
      | f :: fs => if f.status = some stOk then .next (s.putStream fn st { x with frames := { f with after := none, status := none } :: fs }) else .next s
      | [] => .next s
  | none => .next s

/-- The NAL unit types of a byte stream, in order: a start code 0x000001 stands before each (R354; PRESUMED: HEVC's syntax, log entry 79). -/
def nalTypes : List Byte → List Nat
  | [] => []
  | b :: r => if fieldAt (b :: r) 0 3 = 0x010000 ∧ 3 < (b :: r).length then fieldAt (b :: r) 3 1 / 2 % 64 :: nalTypes r else nalTypes r

/-- The OBU types of a low-overhead stream, in order; none where it is not one (R354; PRESUMED: AV1's syntax, log entry 79). -/
def obuTypes : Nat → List Byte → Option (List Nat)
  | _, [] => some []
  | 0, _ => none
  | n + 1, h :: r =>
    let v := h.toNat
    let r1 := r.drop (v / 4 % 2)
    let more := (r1.takeWhile (fun b => b.getLsbD 7)).length
    let size := (List.range (more + 1)).foldl (fun a i => a + fieldAt r1 i 1 % 128 * 128 ^ i) 0
    if 128 ≤ v ∨ v / 2 % 2 = 0 ∨ 8 ≤ more ∨ r1.length < more + 1 + size then none
    else (obuTypes n (r1.drop (more + 1 + size))).map (fun l => v / 8 % 16 :: l)

/-- Whether the bits of a frame have the form that R354 gives the codec's output: a temporal delimiter for each frame and a sequence header
before each key frame in AV1; start codes, and VPS, SPS and PPS before each IRAP picture, in HEVC. -/
def Stream.bitsOk (x : Stream) (key : Bool) (bits : List Byte) : Bool :=
  if x.codec = 0 then
    match obuTypes bits.length bits with
    | some (2 :: l) => !key || (l.takeWhile (fun t => t != 3 && t != 6)).contains 1
    | _ => false
  else
    let l := nalTypes bits
    (fieldAt bits 0 3 == 0x010000 || fieldAt bits 0 4 == 0x01000000) && l.any (fun t => decide (t < 32)) &&
      (!key || [32, 33, 34].all (l.takeWhile (fun t => decide (32 ≤ t))).contains)

/-- Place slots while they are free, at most `n`. -/
def State.placeSlots (s : State) (fn h : Nat) : Nat → State
  | 0 => s
  | n + 1 => (s.placeSlot fn h).placeSlots fn h n

/-- ENCODE_FRAME_DONE: the next frame of a stream is encoded into `bits`, and its slots are written as far as slots stand in DEVICE
ownership; OUTPUT_RECORD_PLACE writes the rest (R357, R358).  `faults` is what the decoders find in the frame's transfers.  What bits an engine
emits no rule gives; they have the form of R354. -/
def execEncodeFrameDone (fn st : Nat) (bits : List Byte) (faults : List SymFault) (s : State) : Host.Outcome State Fault Refusal :=
  match s.stream fn st with
  | some x =>
    match x.frames with
    | f :: _ =>
      if x.busy = true ∨ f.after.isSome = true then .next s
      else
        let (_, spans, s0) := s.hubRead f.ctx (f.src + f.stride * f.done) (f.pitch * x.height * 3 / 2) faults
        let key := x.needKey || (if x.keyInterval = 0 then x.next == 0 else x.next % x.keyInterval == 0) || (f.forceKey && f.done == 0)
        let j : HatchJob := ⟨.frame st x.next key, f.ctx, bits, if spans.isEmpty then [] else [(0, bits.length + 1)], []⟩
        let h := s0.hatch fn x.hatch
        if x.bitsOk key bits = false then .next s
        else
        let s1 := (s0.putStream fn st { x with busy := true }).setHatch fn x.hatch { h with jobs := h.jobs ++ [j] }
        .next (s1.placeSlots fn x.hatch (j.slots (s.payloadBytes fn x.hatch)))
    | [] => .next s
  | none => .next s

/-- ENCODE with SUB 3, CLOSE (R357); its END_OF_STREAM slot uses the hatch for the context that opened the stream (R352; log entry 28). -/
def execEncodeClose (fn q : Nat) (s : State) : Host.Outcome State Fault Refusal :=
  .next (s.execDesc fn q (fun bs => opIs 0x31 bs && opdByte bs 1 == 3) (fun d s => s.encode d (fun s =>
    let st := d.opd 2 2
    s.check d (reasons [
        (!d.reservedOk [(0, 4)] || decide (32 ≤ st), rsGeometry),
        ((match s.stream fn st with | some x => x.closing.isSome | none => true), rsMedia),
        ((match s.stream fn st with
          | some x => s.hatchOn fn x.hatch && !s.slotPlain fn x.hatch && (s.hatchKey x.ctx).isNone
          | none => false), rsHatchKey)]) (fun s =>
      match s.stream fn st with
      | none => s
      | some x => (s.putStream fn st { x with closing := some d }).closeIfIdle fn st))))

end Sys2Proof.Machine
end

