-- ==== Sys2Proof/Machine/Contexts.lean ====
section
/-!
DEFINITION. Creating and destroying contexts (R207, R214, R267 to R275, R412).
-/
namespace Sys2Proof.Machine

/-! ### The parameter block (R268, R269) -/

def mib2 : Nat := 2097152

/-- Read a context parameter block. -/
def readParams (b : List Byte) : CtxParams :=
  let f := fieldAt b
  { extentBytes := f 0 8, planBase := f 8 8, planBytes := f 0x10 8, shelfBase := f 0x18 8, shelfCount := f 0x20 4, shelfPos := f 0x24 4,
    shelfRec := f 0x28 4, mapEntries := f 0x2C 4, mapBase := f 0x30 8, adapterBase := f 0x38 8, adapterSlots := f 0x40 2,
    adapterSlotBytes := f 0x44 4, seed := BitVec.ofNat 64 (f 0x48 8), audited := f 0x50 4 % 2 == 1, pubHash := (b.drop 0x80).take 64,
    adapterPubHash := if zeroAt b 0xC0 64 then (b.drop 0x80).take 64 else (b.drop 0xC0).take 64 }

/-- Whether a parameter block keeps R268 and R269. -/
def paramsOk (b : List Byte) : Bool :=
  let p := readParams b
  decide (mib2 ≤ p.extentBytes) && p.extentBytes % mib2 == 0 && p.planBase % 4096 == 0 && p.planBytes % 4096 == 0 &&
  p.shelfBase % 131072 == 0 && decide (p.shelfCount ≤ 2 ^ 24) && decide (1 ≤ p.shelfPos) && decide (64 ≤ p.shelfRec) &&
  p.shelfRec % 64 == 0 && decide (p.shelfPos * p.shelfRec ≤ 131072) && decide (p.mapEntries ≤ 2 ^ 24) && p.mapBase % 4096 == 0 &&
  p.adapterBase % mib2 == 0 && decide (p.adapterSlots ≤ 256) && zeroAt b 0x42 2 && decide (mib2 ≤ p.adapterSlotBytes) &&
  decide (p.adapterSlotBytes ≤ 2 ^ 31) && p.adapterSlotBytes % mib2 == 0 && decide (fieldAt b 0x50 4 < 2) && zeroAt b 0x54 44 &&
  p.areas.all (fun a => a.2 == 0 || decide (a.1 + a.2 ≤ p.extentBytes)) && !anyMeet p.areas

/-! ### Key slots and extents (R207, R214, R270) -/

/-- The lowest-numbered free key slot of a partition's range. -/
def State.freeKey (s : State) (fn : Nat) : Option Nat :=
  let base := s.field fn 0x50028 17 8
  ((List.range (s.field fn 0x50028 26 18)).map (· + base)).find? (fun i => (mget {} s.mem.keys i).owner.isNone)

/-- The extents that exist: start and size. -/
def State.extents (s : State) : List (Nat × Nat) :=
  s.ctxs.filterMap (fun p => if p.2.phase = .free then none else some (p.2.base, p.2.params.extentBytes))

/-- The lowest cellar address at which `n` bytes fit in one cellar range of a partition beside the extents that exist. -/
def State.placeExtent (s : State) (fn n : Nat) : Option Nat :=
  let starts := (List.range 4).map (fun i => s.field fn (0x50008 + 8 * i) 10 0 * 2 ^ 30) ++ s.extents.map (fun e => e.1 + e.2)
  lowest (starts.filter (fun a => s.inRanges fn a n && s.extents.all (fun e => !spansMeet a n e.1 e.2)))

/-- Audited contexts of a partition (R412). -/
def State.auditCount (s : State) (fn : Nat) : Nat :=
  ((s.ctxsOf fn).filter (fun c => (s.ctx c).phase != .free && (s.ctx c).params.audited)).length

/-- CTX_CREATE (R270): `params` is the parameter block read from host memory. -/
def execCtxCreate (fn q : Nat) (params : List Byte) (s : State) : Host.Outcome State Fault Refusal :=
  .next (s.execDesc fn q (opIs 0x10) (fun d s =>
    let c := d.ctxKey
    let b := hostRead params 256
    let p := readParams b
    let key := s.freeKey fn
    let place := s.placeExtent fn p.extentBytes
    s.check d (reasons [
      (!d.reservedOk [(0, 1), (8, 8)] || d.opd 8 8 % 64 != 0 || !paramsOk b, rsGeometry),
      ((s.ctx c).phase != .free, rsState),
      (key.isNone, rsNoKey),
      (place.isNone, rsNoSpace),
      (p.audited && decide (4 ≤ s.auditCount fn), rsAudit)]) (fun s =>
        match key, place with
        | some k, some a =>
          let s1 := s.setCtx c { phase := .creating, params := p, base := a, keySlot := k, creating := some d }
          let s2 := { s1 with mem := { s1.mem with keys := mset {} s1.mem.keys k { owner := some c, keys := some s1.free } },
                              free := s1.free + 1,
                              host := { s1.host with outCount := mset 0 s1.host.outCount c 0 } }
          s2.setField fn 0xA0010 2 0 (s2.auditCount fn)
        | _, _ => s)))

/-! ### Destroying (R275) -/

/-- CTX_DESTROY: every live request is cancelled, and a running plan is to stop at the end mark of the effect step. -/
def execCtxDestroy (fn q : Nat) (s : State) : Host.Outcome State Fault Refusal :=
  .next (s.execDesc fn q (opIs 0x11) (fun d s =>
    let c := d.ctxKey
    s.check d (reasons [
      (!d.reservedOk [(0, 1)], rsGeometry),
      (!s.ctxUsable c || (s.dom.map (·.ctx)) == some c, rsState)]) (fun s =>
        let x := s.ctx c
        let running := x.phase == .running
        let s1 := s.setCtx c { x with
          destroying := some d
          phase := if running then .running else .destroying
          step := if running then x.step else { x.step with starting := none, desc := none }
          reqs := x.reqs.map (fun (p : Nat × Req) => (p.1, if p.2.phase = .retired then p.2 else { p.2 with cancelled := true })) }
        if running then s1
        else
          let waits := (s1.ctxsOf fn).any (fun k => (s1.ctx k).step.starting.isSome && (s1.ctx k).phase == .ready)
          let s2 := s1.setUnit fn { s1.unit fn with startHeld := (s1.unit fn).startHeld && waits }
          match x.step.desc with
          | some e => if e.opcode = 0x40 then { s2 with domNext := none, link := { s2.link with nextEpoch := none } }.completeOpen e stCancelled
            else if e.opcode = 0x51 then s2.completeOpen e stCancelled else s2
          | none => s2)))

/-- The descriptors in progress on a context that a teardown ends (R275). -/
def Ctx.inProgress (x : Ctx) : List DescRef :=
  x.loads.map (·.desc) ++ x.waits.map (·.desc) ++ x.removals.map (·.2) ++ x.adapters.filterMap (fun p => p.2.verified) ++
  (x.swap.map (·.desc)).toList ++ (x.ckpt.map (·.desc)).toList ++ x.restores

/-- Whether a hatch job of a function belongs to a stream that a context opened. -/
def State.jobOf (s : State) (c fn : Nat) (j : HatchJob) : Bool :=
  match j.kind with
  | .frame st _ _ => ((s.stream fn st).map (fun (x : Stream) => x.ctx)) == some c
  | .close st => ((s.stream fn st).map (fun (x : Stream) => x.ctx)) == some c
  | _ => false

/-- CTX_TEARDOWN_DONE: the teardown of a context whose plan has stopped and whose requests have ended completes (R275): descriptors complete
CANCELLED, the context's streams close, the key slot is erased and the extent released, which keeps its ciphertext (R215).  A stream of
another context that has lost its last FRAMES so goes on with the next, or to its end (R357). -/
def execCtxTeardownDone (c : Nat) (s : State) : Host.Outcome State Fault Refusal :=
  let x := s.ctx c
  match x.phase, x.destroying with
  | .destroying, some d =>
    if x.reqs.isEmpty then
      let frames := s.host.streams.flatMap (fun (p : Nat × Stream) => (p.2.frames.filter (fun f => f.ctx == c || p.2.ctx == c)).map (·.desc) ++
        (if p.2.ctx = c then p.2.closing.toList else []))
      let copies := s.host.hatches.flatMap (fun p => p.2.jobs.filterMap (fun j => match j.kind with
        | .copy e => if j.ctx = c then some e else none
        | _ => none))
      let s1 := (x.inProgress ++ frames ++ copies).foldl (fun (u : State) e => u.completeOpen e stCancelled) (s.leaveCipher c)
      let s2 := { s1 with
        host := { s1.host with
          streams := (s1.host.streams.filter (fun (p : Nat × Stream) => p.2.ctx != c)).map (fun (p : Nat × Stream) =>
            (p.1, { p.2 with frames := p.2.frames.filter (fun f => f.ctx != c)
                             busy := p.2.busy && !((p.2.frames.head?.map (fun (f : FrameJob) => f.ctx)) == some c) }))
          hatches := s1.host.hatches.map (fun (p : Nat × Hatch) =>
            (p.1, { p.2 with jobs := p.2.jobs.filter (fun j => j.ctx != c && !s1.jobOf c (p.1 / 16) j), lastIn := mdel p.2.lastIn c }))
          outCount := mdel s1.host.outCount c }
        mem := { s1.mem with keys := mdel s1.mem.keys x.keySlot, staging := s1.mem.staging.filter (fun e => e.ctx != c) }
        link := { s1.link with incoming := s1.link.incoming.filter (fun i => i.ctx != c) } }
      let s3 := (s2.host.streams.map (fun (p : Nat × Stream) => p.1)).foldl (fun (u : State) k => u.closeIfIdle (k / 32) (k % 32)) (s2.setCtx c {})
      .next ((s3.setField (c / 256) 0xA0010 2 0 (s3.auditCount (c / 256))).complete d stOk x.steps)
    else .next s
  | _, _ => .next s

end Sys2Proof.Machine
end

