-- ==== Sys2Proof/Machine/Control.lean ====
section
/-!
DEFINITION. Loops, branches, waits, step marks, cache fills and arrival checks of the C slot (R126 to R135, R296, R297).
-/
namespace Sys2Proof.Machine

/-- A C-slot operation whose effect comes when the bundle ends. -/
def State.issueC (s : State) (k : Nat) (w : SlotWord) (op : Nat) (enc : Tile → Bool → Bool) (run : Tile → Bool → Bool)
    (c : Tile → Control) : Host.Outcome State Fault Refusal :=
  .next (s.issue k .c w (· == op) (fun _ t b => enc t b) (fun _ t b => run t b)
    (fun _ s => s.setTile k { s.tile k with control := c (s.tile k) }))

/-- LOOP: a count of 0 is illegal in timed code (R126). -/
def execLoop (k : Nat) (w : SlotWord) (s : State) : Host.Outcome State Fault Refusal :=
  s.issueC k w 0x01 (fun _ _ => true) (fun t timed => !timed || decide (t.sreg (fld w 35 31) &&& 0xFFFFFFFF#64 ≠ 0))
    (fun t => .loop (fld w 37 36) (fld w 30 19) ((t.sreg (fld w 35 31)).setWidth 32))

/-- DLY (R129). -/
def execDly (k : Nat) (w : SlotWord) (s : State) : Host.Outcome State Fault Refusal :=
  s.issueC k w 0x02 (fun _ _ => true) (fun _ _ => true) (fun _ => .delay (fld w 15 0))

/-- DLY_EXPIRE: the delay has run out and issue goes on (R129). -/
def execDlyExpire (k : Nat) (s : State) : Host.Outcome State Fault Refusal :=
  match (s.tile k).hold with
  | .delay u => if u ≤ (s.tile k).cyc then .next (s.setTile k { s.tile k with hold := .free }) else .next s
  | _ => .next s

/-- BEND (R129, R135). -/
def execBend (k : Nat) (w : SlotWord) (s : State) : Host.Outcome State Fault Refusal :=
  s.issueC k w 0x03 (fun t _ => !t.elreri) (fun _ _ => true) (fun _ => .bend)

/-- ALIGN (R129, R135). -/
def execAlign (k : Nat) (w : SlotWord) (s : State) : Host.Outcome State Fault Refusal :=
  s.issueC k w 0x04 (fun t _ => !t.elreri) (fun _ _ => true) (fun t => .align (t.sreg (fld w 35 31)).toNat)

/-- The engine of a context's plan that a region belongs to (R295, R296). -/
def Ctx.engineOf (x : Ctx) (r : Nat) : Option (Nat × Engine) :=
  match x.plan with
  | some p => findIdx? (fun e => e.regions.getLsbD r) p.engines 0
  | none => none

/-- Whether a STEPM breaks a placement rule: no engine, another engine's mark, or, in a native plan, any beat but the end
mark's (R130, R296, R297).  That an Elreri STEPM with another mark than the engine index breaks too is DESIGN CHOICE (log entry 75). -/
def State.stepmWrong (s : State) (k mark : Nat) : Bool :=
  match s.ctxOfTile k with
  | none => true
  | some c =>
    let x := s.ctx c
    match x.plan, x.engineOf (regionOfTile k) with
    | some p, some (e, en) =>
      decide (mark ≠ e) || (!p.elreri && decide (s.planBeat c % p.stepBeats ≠ p.stepBeats - en.boundary - 1))
    | _, _ => true

/-- STEPM (R130, R135, R296). -/
def execStepm (k : Nat) (w : SlotWord) (s : State) : Host.Outcome State Fault Refusal :=
  .next (s.issue k .c w (· == 0x05) always always
    (fun _ s =>
      let mark := fld w 15 0
      let s1 := s.setTile k { s.tile k with stepm := (s.tile k).stepm ++ [mark] }
      if s.stepmWrong k mark then s1.modTile k (fun t => t.event .timingBreak) else s1))

/-- HALT (R129). -/
def execHalt (k : Nat) (w : SlotWord) (s : State) : Host.Outcome State Fault Refusal :=
  s.issueC k w 0x06 (fun _ _ => true) (fun _ _ => true) (fun _ => .halt)

/-- JMP (R125). -/
def execJmp (k : Nat) (w : SlotWord) (s : State) : Host.Outcome State Fault Refusal :=
  s.issueC k w 0x07 (fun _ _ => true) (fun _ _ => true) (fun _ => .jump (fld w 23 0))

/-- BR: legal only in untimed code (R125, R128). -/
def execBr (k : Nat) (w : SlotWord) (s : State) : Host.Outcome State Fault Refusal :=
  s.issueC k w 0x08 (fun _ timed => !timed) (fun _ _ => true) (fun _ => .jump (fld w 23 0))

/-- CFETCH (R75, R132). -/
def execCfetch (k : Nat) (w : SlotWord) (s : State) : Host.Outcome State Fault Refusal :=
  .next (s.issue k .c w (· == 0x09) always
    (fun _ t _ => match t.code with
      | some (n, _) => decide ((t.sreg (fld w 31 27)).toNat / 64 * 64 < n)
      | none => false)
    (fun _ s => s.setTile k ((s.tile k).startFill (fld w 37 32) ((s.tile k).sreg (fld w 31 27)).toNat)))

/-- PINSET (R125, R134). -/
def execPinset (k : Nat) (w : SlotWord) (s : State) : Host.Outcome State Fault Refusal :=
  s.issueReg k .c w 0x0A true (fun t => [(1, 3, .pin (t.sreg (fld w 31 27)))])

/-- Whether a valid binding names an arrival counter (R123, R131). -/
def Tile.bound (t : Tile) (ctr : Nat) : Bool :=
  (List.range 64).any (fun i => (t.binding i).getLsbD 11 && bitsOf (t.binding i).toNat 15 12 == ctr)

/-- ACHK (R124, R131): in timed code a failed check raises a break; in untimed code the bundle has stalled until it passes. -/
def execAchk (k : Nat) (w : SlotWord) (s : State) : Host.Outcome State Fault Refusal :=
  .next (s.issue k .c w (· == 0x0B) always always
    (fun _ s => s.modTile k (fun t =>
      let ctr := fld w 37 34
      if t.achkPasses w then
        (if flag w 33 then t.later 1 3 (.acSub ctr (t.achkValue w)) else t)
      else t.event (if t.bound ctr then .linkLate else .timingBreak))))

/-- ACHK_STALL_TIMEOUT: a bundle stalled on its ACHK for 2^26 cycles raises a break and issues without effect (R131).  That it
does so in an Elreri plan, where R137 calls a stall never a timing break, is DESIGN CHOICE (log entry 75). -/
def execAchkStallTimeout (k : Nat) (s : State) : Host.Outcome State Fault Refusal :=
  let t := s.tile k
  match t.lookup with
  | .hit _ b =>
    let w := slotOf b .c
    if s.mayIssue k && t.issued.isEmpty && !t.bundleTimed b && !t.bundleIllegal b && opOf w == 0x0B && t.predOk w &&
        !t.achkVoid && !t.achkPasses w && decide (2 ^ 26 ≤ t.stalled) then
      .next (s.modTile k (fun t => { t.event .timingBreak with achkVoid := true }))
    else .next s
  | _ => .next s

end Sys2Proof.Machine
end

