-- ==== Sys2Proof/Machine/Debug.lean ====
section
/-!
DEFINITION. Halts, stepping and peeks (R138 to R145).
-/
namespace Sys2Proof.Machine

/-- DEBUG_HALT: at the end of the beat the halt scope stops issuing, HALTED is set and the first match is recorded, with the plan beat of the
matching tile's plan; for another cause DBG_BEAT shows what BEAT_PLAN shows (R141, R145, R162; log entry 75). -/
def execDebugHalt (u : Nat) (s : State) : Host.Outcome State Fault Refusal :=
  let x := s.unit u
  match x.haltPend with
  | some h =>
    if x.inBeat then .next s
    else
      let s1 := s.setUnit u { x with haltPend := none, halted := true, resume := none }
      let tile := if h.cause = 2 then h.tile else 0
      let v := h.cause + h.unit * 2 ^ 4 + tile % 64 * 2 ^ 7 + tile / 64 * 2 ^ 13 + (if h.cause = 2 then h.bundle else 0) * 2 ^ 19 + 2 ^ 63
      .next ((s1.setReg u 0x70008 (BitVec.ofNat 64 v)).setReg u 0x70010 (BitVec.ofNat 64
        (match if h.cause = 2 then s.ctxOfTile h.tile else none with | some c => s.planBeat c | none => x.planBeat)))
  | none => .next s

/-- DBG_HALT_REQ: a write of HALT_REQ asks for a halt with cause 1 (R142). -/
def execDbgHaltReq (fn : Nat) (s : State) : Host.Outcome State Fault Refusal :=
  if s.debug && s.functions.contains fn then .next (s.askHalt fn ⟨1, 0, 0, 0, s.clk.tick, 0⟩) else .next s

/-- DBG_RESUME: HALTED clears, held queues are released, and issue resumes at the next beat that is not a landing beat (R142,
R143). -/
def execDbgResume (fn : Nat) (s : State) : Host.Outcome State Fault Refusal :=
  let x := s.unit fn
  if s.debug && x.halted then
    let s1 := s.setUnit fn { x with halted := false, resume := some false }
    .next { s1 with host := { s1.host with queues := s1.host.queues.map (fun (p : Nat × Queue) =>
      (p.1, if p.1 / 64 = fn then { p.2 with held := false } else p.2)) } }
  else .next s

/-- DBG_STEP: exactly one beat runs, from the next beat that is not a landing beat (R142). -/
def execDbgStep (fn : Nat) (s : State) : Host.Outcome State Fault Refusal :=
  let x := s.unit fn
  if s.debug && x.halted then .next (s.setUnit fn { x with resume := some true }) else .next s

/-- DBG_PEEK: a write of DBG_PEEK_ADDR with GO, while halted (R144). -/
def execDbgPeek (fn : Nat) (v : W64) (s : State) : Host.Outcome State Fault Refusal :=
  let x := s.unit fn
  if s.debug && x.halted && v.getLsbD 63 then
    .next ((s.setUnit fn { x with peek := true }).setReg fn 0x70300 (v &&& 0x0000FFFFFFFFFFFF#64))
  else .next s

/-- The word of a tile's state at a byte offset of a space; none where the space has no such word (R145). -/
def Tile.peekWord (t : Tile) (space off : Nat) : Option W64 :=
  if off % 8 ≠ 0 then none
  else match space with
  | 0 => if off < larderSize then some (BitVec.ofNat 64 (readNat t.larder off 8)) else none
  | 1 => if off < 256 then some (t.sreg (off / 8)) else none
  | 2 => if off < 8192 then some (BitVec.ofNat 64 ((t.vreg (off / 256)).toNat / 2 ^ (64 * (off % 256 / 8)))) else none
  | 3 => if off = 0 then some (BitVec.ofNat 64 (t.p ||| 1).toNat) else if off < 40 then some ((t.lcReg (off / 8 - 1)).setWidth 64) else none
  | 4 => if off < 128 then some ((t.acReg (off / 8)).setWidth 64) else none
  | 5 =>
    if off < 512 * 512 then
      let e := mget {} t.acc (off / 512)
      some (BitVec.ofNat 64 (fieldAt (entryBytes e t.poison) (off % 512) 8))
    else none
  | _ => none

/-- The steward port's read of one word, under what faults have changed in it: a larder word and a store lane meet their error correction
as in any other read (R44, R69, R72, R145). -/
def Tile.stewardRead (t : Tile) (space off : Nat) (flips : List (Nat × BitVec 72)) (ecc : List (Nat × BitVec 120)) : Option (W64 × Tile) :=
  match t.peekWord space off with
  | none => none
  | some w =>
    match space with
    | 0 =>
      let (bs, t1) := t.readLarder ⟨t.cyc, 5, 0, off, 8, false, [], flips, .none⟩
      some (BitVec.ofNat 64 (leNat bs), t1)
    | 5 =>
      let (e, t1) := t.readEntry (off / 512) (ecc.filter (fun f => f.1 % 32 == off % 512 / 16))
      some (BitVec.ofNat 64 (fieldAt (entryBytes e t1.poison) (off % 512) 8), t1)
    | _ => some (w, t)

/-- DBG_PEEK_DONE: the word is in DBG_PEEK_DATA and DONE is 1 (R144); `flips` and `ecc` are the errors that the read meets (R44, R72).  Where
the address names no word, the data is a free value (log entry 12).  A peek that is still due when the scope comes out of its halt waits for
the next halt: the steward never reads an issuing tile (R71; log entry 57). -/
def execDbgPeekDone (fn : Nat) (flips : List (Nat × BitVec 72)) (ecc : List (Nat × BitVec 120)) (s : State) : Host.Outcome State Fault Refusal :=
  let x := s.unit fn
  if x.peek && x.halted then
    let a := s.reg fn 0x70300
    let k := 64 * getBits a 11 6 + getBits a 5 0
    let (w, s1) := match if s.unitOf (regionOfTile k) = fn ∧ k < 4096 then (s.tile k).stewardRead (getBits a 15 12) (getBits a 47 16) flips ecc
        else none with
      | some (w, t) => (w, s.putTile k t)
      | none => let (n, s') := s.drawFree 3; (BitVec.ofNat 64 n, s')
    .next (((s1.setUnit fn { s1.unit fn with peek := false }).setReg fn 0x70308 w).setField fn 0x70300 62 62 1)
  else .next s

end Sys2Proof.Machine
end

