-- ==== Sys2Proof/Machine/Domains.lean ====
section
/-!
DEFINITION. Starting, stopping and resuming a domain (R21, R33, R159, R177, R182, R186, R249, R258, R344, R345, R431 to R434).
-/
namespace Sys2Proof.Machine

/-! ### The link checks of a start (R177, R258) -/

/-- A port whose measured latency exceeds what the plan assumes. -/
def State.latencyBad (s : State) (p : Plan) : Bool :=
  (List.range 24).any (fun i => match p.links[i]? with
    | some a => a.ticks != 0xFFFFFFFF && decide (a.ticks < s.field 0 (0x40410 + 64 * i) 31 0)
    | none => false)

/-- A trained neighbour that reports another PLAN_ABI. -/
def State.abiBad (s : State) : Bool :=
  (List.range 24).any (fun i => (s.pstate i == psActive || s.pstate i == psFolded) && !isStore i && (s.lport i).nbAbi != s.field 0 0x38 55 40)

/-! ### DOMAIN_START (R345) -/

/-- The preconditions of step 1. -/
def State.domainBad (s : State) (d : DescRef) : Bool :=
  let size := match (s.ctx d.ctxKey).plan with | some p => p.domainSize != d.opd 32 4 | none => false
  decide (1 < s.nparts) || s.dom.isSome || s.domNext.isSome || decide (d.opd 16 8 < s.clk.frame + 2) || size ||
    d.opd 8 4 == 0 || d.opd 8 4 == s.epoch

/-- DOMAIN_START: the first failure in the order of R345, else the plan is scheduled at frame START_LOCAL.  `faults` are the decoder findings
of the read of the staging list (R201). -/
def execDomainStart (fn q : Nat) (faults : List SymFault) (s : State) : Host.Outcome State Fault Refusal :=
  .next (s.execDesc fn q (opIs 0x40) (fun d s =>
    let c := d.ctxKey
    if !d.reservedOk [(0, 1), (4, 3), (8, 4), (16, 20)] then s.refuse d rsGeometry
    else if s.domainBad d then s.refuse d rsDomain
    else
      let why := lowest (s.startFaults c true faults)
      let s := s.readList c faults
      match why, (s.ctx c).plan with
      | some r, _ => (if r = rsDet then s.noteDetRefusal c else s).refuse d r
      | none, none => s.refuse d rsState
      | none, some p =>
        if s.markBad then s.completeOpen d stTimingBreak
        else if s.latencyBad p || s.abiBad then s.completeOpen d stLinkMismatch
        else
          let frame := d.opd 16 8
          let off := (d.opd 24 8 + 2 ^ 64 - frame) % 2 ^ 64
          { s.scheduleStart c frame (some d) with
            domNext := some ⟨⟨d.opd 4 3, c, d.opd 8 4, false⟩, frame, off⟩
            link := { s.link with nextEpoch := some (d.opd 8 4, frame) } }))

/-! ### DOMAIN_STOP (R345) -/

/-- DOMAIN_STOP: the plan is to stop at the end mark of step AT_STEP − 1, or at the next one; an AT_STEP that has passed means the
next end mark (log entry 40). -/
def execDomainStop (fn q : Nat) (s : State) : Host.Outcome State Fault Refusal :=
  .next (s.execDesc fn q (opIs 0x41) (fun d s =>
    if !d.reservedOk [(0, 1), (40, 8)] then s.refuse d rsGeometry
    else
      match s.dom with
      | none => s.refuse d rsDomain
      | some m =>
        if m.ctx ≠ d.ctxKey then s.refuse d rsDomain
        else
          let at_ := d.opd 40 8
          s.modCtx m.ctx (fun x => { x with stopAt := some (if at_ ≤ x.steps then x.steps else at_ - 1) })))

/-- The DOMAIN_STOPs that are executing. -/
def State.domainStops (s : State) : List DescRef :=
  s.host.queues.flatMap (fun (p : Nat × Queue) => p.2.executing.filter (fun d => d.opcode == 0x41))

/-- The device returns to partitioned mode (R21, R33, R182).  DOMAIN_VALID and DOMAIN_ID change together; that DOMAIN_ID then reads 0 is
DESIGN CHOICE (log entry 63).  BEAT_MARKSKEW.VALID reads 1 in domain mode only (R192). -/
def State.leaveDomain (s : State) : State :=
  let s0 := (s.convertOp ((2 ^ 64 - s.clk.offset) % 2 ^ 64)).setField 0 0x30058 21 21 0
  let s1 := (s0.setField 0 0x20 40 40 0).setField 0 0x20 39 16 0
  { s1 with dom := none, clk := { s1.clk with offset := 0 } }.setField 0 0x60028 0 0 0

/-- DOMAIN_STOP_EFFECT: the plan has stopped at its end mark, or stops at once in domain recovery; live requests retire CANCELLED and
the device leaves domain mode (R345). -/
def execDomainStopEffect (s : State) : Host.Outcome State Fault Refusal :=
  match s.dom, s.domainStops with
  | some m, d :: ds =>
    let c := m.ctx
    let running := (s.ctx c).phase == .running
    if running && !m.recovery then .next s
    else
      let last := (s.ctx c).lastCommit
      let step := if m.recovery then (s.reg 0 0x60038).toNat else last
      let s1 := if running then s.stopPlan c else s
      let s2 := ((s1.ctx c).reqs.map (·.1)).foldl (fun (u : State) id => match u.req c id with
        | some r => if r.phase = .retired then u else u.retire c id stCancelled (r.effect.getD step) step
        | none => u) s1
      let s3 := ((s2.settleStop c).serveWaits c).leaveDomain.modCtx c (fun x => { x with stopAt := none })
      .next ((d :: ds).foldl (fun (u : State) e => u.complete e stOk last) s3)
  | _, _ => .next s

/-! ### DOMAIN_RESUME (R432, R433) -/

/-- The preconditions of step 1. -/
def State.resumeBad (s : State) (d : DescRef) : Bool :=
  let l := (s.ctx d.ctxKey).lastCommit
  (match s.dom with | some m => !m.recovery || m.ctx != d.ctxKey | none => true) || d.opd 8 4 == s.epoch ||
    decide (d.opd 16 8 < s.clk.frame + 2) || (d.opd 40 8 != l && d.opd 40 8 != (l + 1) % 2 ^ 64)

/-- DOMAIN_RESUME: the first failure in the order of R432, else the step is set up for frame START_LOCAL, as a repeat step when it is
the last committed one. -/
def execDomainResume (fn q : Nat) (s : State) : Host.Outcome State Fault Refusal :=
  .next (s.execDesc fn q (opIs 0x42) (fun d s =>
    let c := d.ctxKey
    if !d.reservedOk [(0, 1), (8, 4), (16, 16), (40, 8)] then s.refuse d rsGeometry
    else if s.resumeBad d then s.refuse d rsDomain
    else if (s.ctx c).weights.isNone then s.refuse d rsState
    else
      match (s.ctx c).plan with
      | none => s.refuse d rsState
      | some p =>
        if s.usesFenced c then s.completeOpen d stGrade
        else if s.markBad then s.completeOpen d stTimingBreak
        else if s.latencyBad p || s.abiBad then s.completeOpen d stLinkMismatch
        else
          let frame := d.opd 16 8
          let off := (d.opd 24 8 + 2 ^ 64 - frame) % 2 ^ 64
          let s1 := s.convertOp ((off + 2 ^ 64 - s.clk.offset) % 2 ^ 64)
          let s2 := { s1 with
            dom := s1.dom.map (fun (m : Domain) => { m with recovery := false, epoch := d.opd 8 4 })
            clk := { s1.clk with offset := off }
            link := { s1.link with nextEpoch := some (d.opd 8 4, frame) } }
          let s3 := s2.setField 0 0x60028 0 0 0
          let s4 := s3.modStep c (fun t => { t with base := d.opd 40 8, starting := some (some frame), desc := some d,
                                                    repeat_ := d.opd 40 8 == (s.ctx c).lastCommit })
          s4.setUnit 0 { s4.unit 0 with startHeld := true }))

end Sys2Proof.Machine
end

