-- ==== Sys2Proof/Machine/Loads.lean ====
section
/-!
DEFINITION. The descriptors and events of weight loads, plan loads, swaps and adapters (R271 to R293).
-/
namespace Sys2Proof.Machine

/-! ### PLAN_LOAD (R151, R152, R284) -/

/-- A plan image stands at STAGE_BASE: it is checked, its variant selected, and its code and set-up data placed (R151, R284). -/
def State.planCopied (s : State) (c order : Nat) (img : List Byte) : State :=
  match s.findLoad c order with
  | none => s
  | some l =>
    let d := l.desc
    let s1 := s.dropLoad c order
    let p := (s1.ctx c).params
    if imageOk img (d.opd 16 8) = false ∨ fieldAt img 6 2 ≠ s1.field 0 0x38 55 40 then s1.refuse d rsImage
    else if imageDigest img ≠ (img.drop 0x40).take 64 then s1.completeOpen d stDigest
    else
      match selectVariant img (s1.partShape (c / 256)) s1.fencedMask with
      | (none, _) => s1.completeOpen d stGrade
      | (some v, skipped) =>
        match buildPlan img v p.planBase p.planBytes with
        | none => s1.refuse d rsGeometry
        | some (pl, writes) =>
          let s2 := writes.foldl (fun (u : State) w => u.ctxWrite c w.1 w.2) s1
          ((s2.modCtx c (fun x => { x with plan := some pl })).settlePhase c).complete d (if skipped then stDegraded else stOk) v

/-- PLAN_LOAD: `image` is what the device reads from host memory; a short or broadcast image leaves the load in progress (R284). -/
def execPlanLoad (fn q : Nat) (image : List Byte) (s : State) : Host.Outcome State Fault Refusal :=
  .next (s.execDesc fn q (opIs 0x12) (fun d s =>
    let c := d.ctxKey
    let x := s.ctx c
    let kind := d.opd 1 1
    let root := d.opd 2 1 % 2 == 1
    let n := d.opd 16 8
    s.check d (reasons [
      (!d.reservedOk [(0, 3), (4, 2), (8, 32)] || (kind != 1 && kind != 4) || decide (2 ≤ d.opd 2 1) || decide (4096 ≤ d.opd 4 2) ||
        d.opd 24 8 % 4096 != 0 || d.opd 36 4 == 0 || n == 0 || !x.params.inFree (d.opd 24 8) n, rsGeometry),
      (s.phaseOf c != .empty && s.phaseOf c != .ready, rsState),
      (x.loads.any (fun l => l.kind == .plan), rsBusy),
      (s.tagBad (kind == 4 || root) root (d.opd 32 4) (d.opd 4 2), rsTag)]) (fun s =>
        let e : LoadEntry := { shard := 0, vaultDest := false, srcKind := kind, altKind := 0, root := root, dest := d.opd 24 8, src := d.opd 8 8,
                               object := [], alt := 0, bytes := n, digest := [] }
        let l : Load := { desc := d, ctx := c, kind := .plan, tag := d.opd 32 4, group := d.opd 4 2, dev := 0, altDev := 0, timeout := d.opd 36 4,
                          since := d.start, set := ⟨0, 0, [], 0, [], 0, 0, []⟩, list := [], shards := [newShard e], firstDeadline := true, changed := [],
                          stageBase := 0 }
        let s1 := (s.modCtx c (fun x => { x with plan := none, loads := x.loads ++ [l] })).settlePhase c
        let s2 := s1.pumpLoad c d.order
        if kind = 1 ∧ image.length ≥ n then
          let img := image.take n
          let s3 := s2.ctxWrite c (d.opd 24 8) img
          let s4 := if root then s3.bcastSend (d.opd 4 2) (d.opd 24 8) (d.opd 32 4) img else s3
          s4.planCopied c d.order img
        else s2)))

/-! ### WEIGHTS_LOAD (R279) -/

/-- A weight load or a swap is in progress (R274). -/
def State.weightsBusy (s : State) (c : Nat) : Bool :=
  (s.ctx c).swap.isSome || (s.ctx c).loads.any (fun l => match l.kind with
    | .weights => true | .stage => true | .stageCommit => true | .direct => true | .plan => false | .adapter _ _ _ => false)

/-- The operand checks that weight loads and swaps with a table share: the table is read at execution for the TAG check (R271). -/
def State.tableFaults (s : State) (d : DescRef) (table : List Byte) : List Nat :=
  let raw := rawEntries (hostRead table (64 + 64 * tableCount table))
  let root := raw.any rawRoot
  reasons [
    (decide (4096 ≤ d.opd 2 2) || d.opd 8 8 % 64 != 0 || d.opd 16 8 % 64 != 0 || d.opd 24 4 == 0 ||
      (raw.any rawStore && decide (d.opd 4 2 < 2 ^ 15)), rsGeometry),
    (s.weightsBusy d.ctxKey, rsBusy),
    (s.tagBad (raw.any rawBcast || root) root (d.opd 28 4) (d.opd 2 2), rsTag)]

/-- The load that a weight descriptor starts. -/
def mkLoad (d : DescRef) (kind : LoadKind) (set : WeightSet) (list : List Byte) (shards changed : List LoadEntry) (stageBase : Nat) : Load :=
  { desc := d, ctx := d.ctxKey, kind := kind, tag := d.opd 28 4, group := d.opd 2 2, dev := d.opd 4 2, altDev := d.opd 6 2, timeout := d.opd 24 4,
    since := d.start, set := set, list := list, shards := shards.map newShard, firstDeadline := false, changed := changed, stageBase := stageBase }

/-- Copy the manifest and the table into the context. -/
def State.copyIn (s : State) (c : Nat) (l : List (Nat × List Byte)) : State := l.foldl (fun (u : State) p => u.ctxWrite c p.1 p.2) s

/-- End with the first failure of the manifest and table checks. -/
def State.failPrep (s : State) (d : DescRef) (st r : Nat) : State := if st = stBad then s.complete d st r else s.completeOpen d st

/-- WEIGHTS_LOAD: `manifest`, `table` and `list` are what the device reads from host memory (R279). -/
def execWeightsLoad (fn q : Nat) (manifest table list : List Byte) (s : State) : Host.Outcome State Fault Refusal :=
  .next (s.execDesc fn q (opIs 0x13) (fun d s =>
    let c := d.ctxKey
    s.check d (reasons [
      (!d.reservedOk [(0, 1), (2, 30)], rsGeometry),
      (s.phaseOf c != .empty && s.phaseOf c != .ready, rsState)] ++ s.tableFaults d table) (fun s =>
        let s1 := (s.modCtx c (fun x => { x with weights := none, staged := none })).settlePhase c
        match s1.prepareLoad c manifest table false with
        | .error (st, r) => s1.failPrep d st r
        | .ok i =>
          let set : WeightSet := ⟨0, i.manBase, i.mdigest, i.count, i.entries, i.listBase, i.listCount, i.lens⟩
          let s2 := s1.copyIn c i.copies
          (s2.modCtx c (fun x => { x with loads := x.loads ++ [mkLoad d .weights set list i.entries [] 0] })).settleLoad c d.order)))

/-! ### Shard fetches (R280, R282) -/

/-- SHARD_ATTEMPT_DONE: the attempt of shard position `i` of the `l`-th load of a context ends; `data` is what a host or vault source
gave, `err` says that the source reported an error (R280, R282).  A raw vault read of an offset that no valid decoder of the partition holds
is a failed page, and the attempt fails (R220, R222, R278). -/
def execShardAttemptDone (c l i : Nat) (data : List Byte) (err : Bool) (s : State) : Host.Outcome State Fault Refusal :=
  match (s.ctx c).loads[l]? with
  | none => .next s
  | some ld =>
    match ld.shards[i]? with
    | none => .next s
    | some sh =>
      let o := ld.desc.order
      if sh.fetching = false ∨ sh.verified = true then .next s
      else if err then .next (match ld.kind with
        | .plan => s
        | _ => (s.failAttempt c o i false).pumpLoad c o)
      else if s.vaultGaps c sh ≠ [] then
        .next (((((s.vaultGaps c sh).foldl (fun (w : State) p =>
          w.failPage c (if sh.entry.vaultDest then none else some (sh.entry.dest + p.1)) (sh.from_ + p.1) p.2) s).failAttempt c o i false)).pumpLoad c o)
      else
        match s.shardArrived c o i sh data with
        | none => .next s
        | some (bs, poison, s1) =>
          let s2 := if sh.entry.root && sh.attempt == 1 then s1.bcastSend ld.group sh.entry.dest ld.tag bs else s1
          match ld.kind with
          | .plan => .next (s2.planCopied c o bs)
          | _ =>
            let s3 := if sh.entry.vaultDest then s2.shardToVault c sh.entry bs else s2
            if poison then .next ((s3.failAttempt c o i false).pumpLoad c o)
            else if sha512 bs = sh.entry.digest then
              .next ((s3.putLoad c o (fun l => modShard l i (fun sh => { sh with verified := true }))).settleLoad c o)
            else .next ((s3.failAttempt c o i true).pumpLoad c o)

/-- SHARD_FIRST_DEADLINE: TIMEOUT_MS / 2 after the descriptor started, first attempts that have not completed count as failed (R280); a direct
swap's attempts count from its descriptor too, whether or not its barrier has come (log entry 71). -/
def execShardFirstDeadline (c l : Nat) (s : State) : Host.Outcome State Fault Refusal :=
  match (s.ctx c).loads[l]? with
  | some ld =>
    if ld.firstDeadline = true then .next s
    else
      let o := ld.desc.order
      let s1 := (s.advanceTo (ld.since + ld.timeout * ticksPerMs / 2)).putLoad c o (fun l => { l with firstDeadline := true })
      let s2 := (List.range ld.shards.length).foldl (fun (u : State) i =>
        match (u.findLoad c o).bind (fun l => l.shards[i]?) with
        | some sh => if sh.attempt = 1 ∧ sh.verified = false then u.failAttempt c o i false else u
        | none => u) s1
      .next (s2.pumpLoad c o)
  | none => .next s

/-- The lowest shard index that has not verified. -/
def Load.missing (l : Load) : Nat := (lowest ((l.shards.filter (fun sh => !sh.verified)).map (fun sh => sh.entry.shard))).getD 0

/-- LOAD_TIMEOUT: TIMEOUT_MS passes with data unverified (R280, R284). -/
def execLoadTimeout (c l : Nat) (s : State) : Host.Outcome State Fault Refusal :=
  match (s.ctx c).loads[l]? with
  | some ld =>
    .next ((s.advanceTo (ld.since + ld.timeout * ticksPerMs)).failLoad c ld.desc.order stShard ld.missing)
  | none => .next s

/-! ### Swaps (R285 to R289) -/

/-- Whether BARRIER_STEP or VOID_STEPS is not permitted (R287). -/
def State.barrierBad (s : State) (d : DescRef) : Bool :=
  let b := d.opd 32 8
  let v := d.opd 40 4
  let x := s.ctx d.ctxKey
  (s.domainMode && (b == 0 || v == 0)) || (b != 0 && s.runsSteps d.ctxKey && decide (b ≤ x.steps)) || decide (2 ^ 20 < v)

/-- The context checks of a swap (R272, R274). -/
def State.swapFaults (s : State) (d : DescRef) : List Nat :=
  let c := d.ctxKey
  reasons [(!s.ctxUsable c || (s.ctx c).weights.isNone, rsState)]

/-- Whether a swap's table breaks the layout of the current generation (R286). -/
def layoutBad (cur : WeightSet) (i : LoadInfo) (changed : List LoadEntry) : Bool :=
  i.count != cur.shardCount || i.lens != cur.lens || i.entries.length != cur.entries.length ||
  !(i.entries.all (fun e => cur.entries.any (fun o => o.shard == e.shard && o.vaultDest == e.vaultDest && o.dest == e.dest))) ||
  changed.any (·.vaultDest)

/-- The shards whose digest differs from the current generation's, in ascending order. -/
def changedShards (cur : WeightSet) (i : LoadInfo) : List LoadEntry :=
  byShard (i.entries.filter (fun e => !(cur.entries.any (fun o => o.shard == e.shard && o.digest == e.digest))))

/-- A swap that reads a manifest: its checks, then its load with the shards that it fetches.  The staging list stays the current one. -/
def State.swapLoad (s : State) (d : DescRef) (kind : LoadKind) (manifest table : List Byte) : State :=
  let c := d.ctxKey
  match (s.ctx c).weights with
  | none => s
  | some cur =>
    match s.prepareLoad c manifest table true with
    | .error (st, r) => s.failPrep d st r
    | .ok i =>
      let ch := changedShards cur i
      let set : WeightSet := ⟨0, i.manBase, i.mdigest, i.count, i.entries, cur.listBase, cur.listCount, i.lens⟩
      let (placed, stop) := placeStage i.stageBase ch
      let staged := kind != .direct
      let noRoom := staged && (decide (i.stageBase + i.stageBytes < stop) || !(s.ctx c).params.inFree i.stageBase i.stageBytes ||
        anyMeet ((i.stageBase, i.stageBytes) :: i.copies.map (fun p => (p.1, p.2.length))) ||
        i.entries.any (fun e => !e.vaultDest && spansMeet i.stageBase i.stageBytes e.dest e.bytes))
      match lowest (reasons [(noRoom, rsGeometry), (layoutBad cur i ch, rsLayout)]) with
      | some r => s.refuse d r
      | none =>
        let shards := if staged then placed.map (fun p => { p.1 with dest := p.2 }) else ch
        let s1 := s.copyIn c i.copies
        let w : Swap := { desc := d, next := if staged then none else some ⟨set, ch, 0⟩, barrierStep := (if s.runsSteps c then d.opd 32 8 else 0),
                          voidSteps := (if s.runsSteps c then d.opd 40 4 else 0),
                          direct := !staged, voids := none, started := false, gen := 0, copied := false }
        let s2 := s1.modCtx c (fun x => { x with
          staged := if staged then none else x.staged
          swap := if kind = .stage then x.swap else some w
          loads := x.loads ++ [mkLoad d kind set [] shards ch i.stageBase] })
        if staged then s2.settleLoad c d.order
        else if s2.runsSteps c then s2 else s2.swapStart c

/-- WEIGHTS_SWAP with PHASE 1, STAGE; a PHASE that the table does not give is refused here (R285). -/
def execWeightsSwapStage (fn q : Nat) (manifest table : List Byte) (s : State) : Host.Outcome State Fault Refusal :=
  .next (s.execDesc fn q (fun bs => opIs 0x14 bs && !([2, 3, 4].contains (opdByte bs 1))) (fun d s =>
    s.check d (reasons [(!d.reservedOk [(0, 32)] || d.opd 1 1 != 1, rsGeometry)] ++ s.swapFaults d ++ s.tableFaults d table)
      (fun s => s.swapLoad d .stage manifest table)))

/-- WEIGHTS_SWAP with PHASE 2, COMMIT (R285, R287). -/
def execWeightsSwapCommit (fn q : Nat) (s : State) : Host.Outcome State Fault Refusal :=
  .next (s.execDesc fn q (fun bs => opIs 0x14 bs && opdByte bs 1 == 2) (fun d s =>
    let c := d.ctxKey
    s.check d (reasons [
        (!d.reservedOk [(0, 8), (24, 20)] || decide (4096 ≤ d.opd 2 2) || d.opd 24 4 == 0, rsGeometry),
        (s.weightsBusy c, rsBusy),
        (d.opd 28 4 != 0, rsTag),
        (s.barrierBad d || (s.ctx c).staged.isNone, rsStep)] ++ s.swapFaults d) (fun s =>
      let w : Swap := { desc := d, next := (s.ctx c).staged, barrierStep := (if s.runsSteps c then d.opd 32 8 else 0),
                          voidSteps := (if s.runsSteps c then d.opd 40 4 else 0), direct := false, voids := none,
                        started := false, gen := 0, copied := false }
      let s1 := s.modCtx c (fun x => { x with staged := none, swap := some w })
      if s1.runsSteps c then s1 else s1.swapStart c)))

/-- WEIGHTS_SWAP with PHASE 3, STAGE_AND_COMMIT (R285, R287). -/
def execWeightsSwapStageAndCommit (fn q : Nat) (manifest table : List Byte) (s : State) : Host.Outcome State Fault Refusal :=
  .next (s.execDesc fn q (fun bs => opIs 0x14 bs && opdByte bs 1 == 3) (fun d s =>
    s.check d (reasons [(!d.reservedOk [(0, 44)], rsGeometry), (s.barrierBad d, rsStep)] ++ s.swapFaults d ++ s.tableFaults d table)
      (fun s => s.swapLoad d .stageCommit manifest table)))

/-- WEIGHTS_SWAP with PHASE 4, DIRECT (R285, R287). -/
def execWeightsSwapDirect (fn q : Nat) (manifest table : List Byte) (s : State) : Host.Outcome State Fault Refusal :=
  .next (s.execDesc fn q (fun bs => opIs 0x14 bs && opdByte bs 1 == 4) (fun d s =>
    s.check d (reasons [(!d.reservedOk [(0, 44)], rsGeometry), (s.barrierBad d, rsStep)] ++ s.swapFaults d ++ s.tableFaults d table)
      (fun s => s.swapLoad d .direct manifest table)))

/-- SWAP_BARRIER_START: the barrier's end mark has passed, or the context is not running (R287). -/
def execSwapBarrierStart (c : Nat) (s : State) : Host.Outcome State Fault Refusal :=
  match (s.ctx c).swap with
  | some w => if w.voids.isSome || (!s.swapWaits c w && w.next.isSome) then .next (s.swapStart c) else .next s
  | none => .next s

/-- SWAP_COMMIT_DONE: the copies of a commit, or the fetches of a direct swap, are complete; the new generation becomes current at the
start of the first step that is not void, at once for a context that is not running (R287).  `faults` are the decoder findings of the copies'
reads (R201). -/
def execSwapCommitDone (c : Nat) (faults : List SymFault) (s : State) : Host.Outcome State Fault Refusal :=
  match (s.ctx c).swap with
  | some w =>
    match w.next with
    | some g =>
      if w.started = false ∨ w.copied = true ∨ (w.direct = true ∧ (s.findLoad c w.desc.order).isSome = true) then .next s
      else
        let s1 := if w.direct then s else s.copyStaged c g faults
        let w1 := { w with copied := true }
        if (s1.ctx c).phase = .running ∧ w.voids.isSome = true then .next (s1.modCtx c (fun x => { x with swap := some w1 })) else .next (s1.swapFinish c w1)
    | none => .next s
  | none => .next s

/-! ### Adapters (R292, R293) -/

/-- An operation on an adapter ID is in progress: a load, a wait, a verified generation that is not yet current, or a removal that waits for its
boundary (R274, R292, R293). -/
def Ctx.adapterBusy (x : Ctx) (id : Nat) : Bool :=
  x.waits.any (fun w => w.id == id) || x.removals.any (fun p => p.1 == id) || x.adapters.any (fun p => p.2.id == id && (p.2.phase == .loading || p.2.verified.isSome))

/-- The checks that the adapter descriptors share. -/
def State.adapterFaults (s : State) (d : DescRef) (layout : List (Nat × Nat)) (table : List Byte) : List Nat :=
  let raw := rawEntries (hostRead table (64 + 64 * tableCount table))
  reasons [
    (!d.reservedOk layout || decide (4096 ≤ d.opd 2 2) || d.opd 24 4 == 0 || (raw.any rawStore && decide (d.opd 4 2 < 2 ^ 15)), rsGeometry),
    (!s.ctxUsable d.ctxKey, rsState),
    ((s.ctx d.ctxKey).adapterBusy (d.opd 2 2), rsBusy),
    (raw.any rawRoot, rsTag)]

/-- Take a slot, or wait for one. -/
def State.askSlot (s : State) (d : DescRef) (replace : Bool) (manifest table : List Byte) : State :=
  let c := d.ctxKey
  let w : AdapterWait := { desc := d, ctx := c, id := d.opd 2 2, replace := replace, timeout := d.opd 24 4, manifest := manifest, table := table }
  (s.modCtx c (fun x => { x with waits := x.waits ++ [w] })).serveWaits c

/-- Whether an ID is loaded and not removed, and whether a removed generation is still held. -/
def Ctx.adapterLoaded (x : Ctx) (id : Nat) : Bool := (x.currentSlot id).isSome && !(x.removals.any (fun p => p.1 == id))
def Ctx.adapterHeld (x : Ctx) (id : Nat) : Bool := (x.currentSlot id).isSome || x.removed.contains id

/-- ADAPTER_LOAD (R292). -/
def execAdapterLoad (fn q : Nat) (manifest table : List Byte) (s : State) : Host.Outcome State Fault Refusal :=
  .next (s.execDesc fn q (opIs 0x15) (fun d s =>
    s.check d (s.adapterFaults d [(0, 1), (2, 26)] table ++ reasons [((s.ctx d.ctxKey).adapterHeld (d.opd 2 2), rsAdapter)])
      (fun s => s.askSlot d false manifest table)))

/-- ADAPTER_REPLACE without REMOVE; a FLAGS value that the table does not give is refused here (R292). -/
def execAdapterReplace (fn q : Nat) (manifest table : List Byte) (s : State) : Host.Outcome State Fault Refusal :=
  .next (s.execDesc fn q (fun bs => opIs 0x16 bs && opdByte bs 1 != 1) (fun d s =>
    s.check d (s.adapterFaults d [(0, 28)] table ++ reasons [
        (d.opd 1 1 != 0, rsGeometry), (!((s.ctx d.ctxKey).adapterLoaded (d.opd 2 2)), rsAdapter)])
      (fun s => s.askSlot d true manifest table)))

/-- ADAPTER_REPLACE with REMOVE: it applies at the next step boundary, at once for a context that is not running (R293). -/
def execAdapterRemove (fn q : Nat) (s : State) : Host.Outcome State Fault Refusal :=
  .next (s.execDesc fn q (fun bs => opIs 0x16 bs && opdByte bs 1 == 1) (fun d s =>
    let c := d.ctxKey
    s.check d (reasons [
        (!d.reservedOk [(0, 28)] || decide (4096 ≤ d.opd 2 2) || d.opd 24 4 == 0, rsGeometry),
        (!s.ctxUsable c, rsState),
        ((s.ctx c).adapterBusy (d.opd 2 2), rsBusy),
        (!((s.ctx c).adapterLoaded (d.opd 2 2)), rsAdapter)]) (fun s =>
      let s1 := s.modCtx c (fun x => { x with removals := x.removals ++ [(d.opd 2 2, d)] })
      if s1.runsSteps c then s1 else (s1.adapterBoundary c).serveWaits c)))

/-- ADAPTER_SLOT_TIMEOUT: no slot was freed for the `n`-th waiting adapter descriptor (R292). -/
def execAdapterSlotTimeout (c n : Nat) (s : State) : Host.Outcome State Fault Refusal :=
  match (s.ctx c).waits[n]? with
  | some w =>
    let s1 := s.advanceTo (w.desc.start + w.timeout * ticksPerMs)
    .next ((s1.modCtx c (fun x => { x with waits := x.waits.filter (fun y => y.desc.order != w.desc.order) })).completeOpen w.desc stAdapterBusy)
  | none => .next s

end Sys2Proof.Machine
end

