-- ==== Sys2Proof/Machine/Matrix.lean ====
section
/-!
DEFINITION. The M slot and the array (R35 to R47, R51 to R56, R86 to R96, R113 to R115).
-/
namespace Sys2Proof.Machine

/-! ### Issue -/

/-- The job an MMUL starts. -/
def Tile.mmulJob (t : Tile) (w : SlotWord) (c : MatCfg) (n : Nat) (flips : List (Nat × BitVec 72)) : Job where
  id := t.seq
  issue := t.cyc
  s0 := t.cyc + c.fillCycles + 3
  cfg := t.mcReg (fld w 37 36)
  fillAddr := t.blockAddr w 35 31
  strmAddr := t.blockAddr w 30 26
  dst := if c.vdst then fld w 25 20 else (t.sreg (fld w 24 20)).toNat
  n := n
  base := fld w 13 5
  started := false
  block := []
  vecs := []
  nextCmp := 0
  outs := []
  flips := flips

/-- The register increments of bits [4:2] (R113, R115). -/
def mmulIncs (w : SlotWord) (c : MatCfg) (n : Nat) : List (Nat × Nat) :=
  (if flag w 4 then [(fld w 35 31, c.blockBytes)] else []) ++
  (if flag w 3 then [(fld w 30 26, n * c.vecBytes)] else []) ++
  (if flag w 2 && !c.vdst then [(fld w 24 20, n * c.outBytes)] else [])

/-- MMUL (R35, R113, R115). -/
def execMmul (k : Nat) (w : SlotWord) (flips : List (Nat × BitVec 72)) (s : State) : Host.Outcome State Fault Refusal :=
  .next (s.issue k .m w (· == 0x01) (fun _ _ _ => decide (fld w 19 14 < 36)) (fun _ t _ => t.mmulRuns w)
    (fun _ s =>
      let t := s.tile k
      match MatCfg.ofWord (t.mcReg (fld w 37 36)), t.nsrc w with
      | some c, some n =>
        let j := t.mmulJob w c n flips
        let t1 := t.score .m w (some (j.s0 + n * c.vecCycles - 1)) (some (j.s0 + (n - 1) * c.vecCycles + c.outOff)) 0
        (s.setTile k { t1 with jobs := t1.jobs ++ [j], seq := t1.seq + 1 }).incRegs k 4 (mmulIncs w c n)
      | _, _ => s))

/-- MCFG (R113). -/
def execMcfg (k : Nat) (w : SlotWord) (s : State) : Host.Outcome State Fault Refusal :=
  .next (s.issue k .m w (· == 0x02) always always
    (fun _ s => s.setTile k ((s.tile k).later 1 4 (.mcfg (fld w 37 36) ((s.tile k).sreg (fld w 35 31))))))

/-! ### Array events (R45) -/

/-- The first job for which a test holds, with its configuration. -/
def Tile.jobWhere (t : Tile) (p : Job → MatCfg → Bool) : Option (Job × MatCfg) :=
  t.jobs.findSome? (fun j => match MatCfg.ofWord j.cfg with | some c => if p j c then some (j, c) else none | none => none)

/-- ARRAY_STREAM_START: shadow and active swap and the stream starts (R36, R45). -/
def execArrayStreamStart (k : Nat) (s : State) : Host.Outcome State Fault Refusal :=
  match (s.tile k).jobWhere (fun j _ => !j.started && decide (j.s0 ≤ (s.tile k).cyc)) with
  | none => .next s
  | some (j, _) =>
    .next (s.modTileSettle k (fun t =>
      let t1 := { t with active := t.shadow, shadow := t.active }
      t1.modJob j.id (fun j => { j with started := true, block := t1.active })))

/-- Whether the compare of a job's next vector is due. -/
def Job.compareDue (j : Job) (c : MatCfg) (cyc : Nat) : Bool :=
  j.started && decide (j.nextCmp < j.n) && decide (j.s0 + j.nextCmp * c.vecCycles + c.cmpOff ≤ cyc)

/-- The store entry the next vector's results go to, and whether classes clash (R40, R41, R87). -/
def Tile.accumulate (t : Tile) (j : Job) (c : MatCfg) (o : CycleOut) (ecc : List (Nat × BitVec 120)) : AccEntry × Tile :=
  let fp32 := decide (c.group = .bf16)
  let (e, t1) := if c.mode = .add ∨ c.mode = .addOut then t.readEntry (j.base + j.nextCmp) ecc else (({} : AccEntry), t)
  let (e', clash) := e.update c.mode fp32 c.anchor o.lanes
  (e', if clash then t1.poisoned 3 else t1)

/-- ARRAY_VECTOR_COMPARE: the compare of a vector completes and its exact results reach the store (R45, R46, R51, R52, R56). -/
def Tile.compare (t : Tile) (j : Job) (c : MatCfg) (faults : List RowFault) (chk : Option (BitVec 120))
    (ecc : List (Nat × BitVec 120)) : Tile :=
  let vec := ((j.vecs.find? (fun v => v.1 == j.nextCmp)).map (·.2)).getD []
  let o := arrayCycle c j.block vec
    (faults.map (fun f => (f.row, ⟨⟨f.x, f.special, f.inexact, f.range⟩, f.cmp, f.mag⟩))) chk
  let t1 := if o.unchecked then t.event .unchecked else t
  let t2 := if o.mismatch then (t1.poisoned 0).event .mismatch else t1
  let (e, t3) := t2.accumulate j c o ecc
  let t4 := if c.mode = .direct then t3 else { t3 with accWrites := t3.accWrites ++ [(j.base + j.nextCmp, e)] }
  let fp32 := decide (c.group = .bf16)
  let row : RowOut := ⟨j.nextCmp, if c.mode = .direct then o.lanes else e.all, fp32⟩
  let t5 := t4.modJob j.id (fun j =>
    { j with nextCmp := j.nextCmp + 1, vecs := j.vecs.filter (fun v => v.1 != row.n),
             outs := if c.delivers then j.outs ++ [row] else j.outs })
  { t5 with jobs := t5.jobs.filter (fun x => !(x.id == j.id && x.nextCmp == x.n && x.outs.isEmpty)) }

def execArrayVectorCompare (k : Nat) (faults : List RowFault) (chk : Option (BitVec 120))
    (ecc : List (Nat × BitVec 120)) (s : State) : Host.Outcome State Fault Refusal :=
  match (s.tile k).jobWhere (fun j c => j.compareDue c (s.tile k).cyc) with
  | none => .next s
  | some (j, c) => .next (s.modTileSettle k (fun t => t.compare j c faults chk ecc))

/-- Whether the oldest row of a job is due at its destination. -/
def Job.resultDue (j : Job) (c : MatCfg) (cyc : Nat) : Bool :=
  match j.outs with
  | [] => false
  | o :: _ => decide (j.s0 + o.n * c.vecCycles + c.outOff ≤ cyc)

/-- A rounded row goes to the larder or to half a vector register (R42, R45, R115); results with RANGE set are counted (R89). -/
def Tile.resultRow (t : Tile) (j : Job) (c : MatCfg) (o : RowOut) : Tile :=
  let t1 := (o.lanes.filter (fun l => !o.fp32 && l.range)).foldl (fun u _ => u.event .accRange) t
  let t2 := t1.modJob j.id (fun j => { j with outs := j.outs.tail })
  let t3 := { t2 with jobs := t2.jobs.filter (fun x => !(x.id == j.id && x.nextCmp == x.n && x.outs.isEmpty)) }
  if c.vdst then
    let (v, lanes) := outHalf c o.fp32 (decide (32 ≤ j.dst)) o.lanes
    { t3 with results := t3.results ++ [⟨t3.cyc, 5, .vreg (j.dst % 32) lanes v⟩] }
  else
    let bs := outRow c o.fp32 o.lanes
    { t3 with accesses := t3.accesses ++
        [{ due := t3.cyc, prio := 2, order := j.id, addr := j.dst + o.n * c.outBytes, len := bs.length, write := true,
           data := bs, flips := [], use := .none }] }

/-- ARRAY_RESULT_WRITE (R45). -/
def execArrayResultWrite (k : Nat) (s : State) : Host.Outcome State Fault Refusal :=
  match (s.tile k).jobWhere (fun j c => j.resultDue c (s.tile k).cyc) with
  | none => .next s
  | some (j, c) =>
    match j.outs with
    | [] => .next s
    | o :: _ => .next (s.modTileSettle k (fun t => t.resultRow j c o))

end Sys2Proof.Machine
end

