-- ==== Sys2Proof/Machine/Power.lean ====
section
/-!
DEFINITION. Power, protection, thermal limits and the power cap (R443 to R456, R460 to R465).
-/
namespace Sys2Proof.Machine

/-! ### Power-up (R445, R447 to R451) -/

/-- POWER_UP: input reaches 38.0 V after it has been absent for `gone` ms, or was reversed or low.  A latched shutdown that asks for a
removal needs 1 s of it; an over-voltage without one returns by INPUT_IN_RANGE.  Where the module stays held off, a removal still ends the
mask of new history slots (R448). -/
def execPowerUp (gone : Nat) (s : State) : Host.Outcome State Fault Refusal :=
  if s.railsOn then .next s
  else if s.power.latched.isEmpty || decide (1000 ≤ gone) then .next (s.powerUp (decide (0 < gone)))
  else .next { s with power := { s.power with reversed := false, fresh := if 0 < gone then 0 else s.power.fresh } }

/-- INPUT_IN_RANGE: after an over-voltage or lost-input shutdown, input stays within 38.0 to 50.0 V for 10 ms (R447, R449). -/
def execInputInRange (s : State) : Host.Outcome State Fault Refusal :=
  if !s.railsOn && (s.power.lost || !s.power.latched.isEmpty) && !s.power.latched.any needsRemoval then .next (s.powerUp false)
  else .next s

/-- REVERSED_INPUT: nothing is powered, the PSC included, and the cause is recorded with the energy of the reversed input; to reverse the
input is to have removed it, which ends the mask of new history slots (R447, R448).  `cut` is as for `Fuses.record`. -/
def execReversedInput (cut : Option Nat) (s : State) : Host.Outcome State Fault Refusal :=
  if cutOk cut then
    let s1 := { s with boot := { s.boot with fuses := s.boot.fuses.record caReversed 0 cut } }.unpowered
    .next { s1 with power := { latched := s.power.latched, lost := s.power.lost, reversed := true } }
  else .next s

/-! ### Shutdowns (R447, R449, R452); `cut` is as for `Fuses.record` -/

/-- INPUT_LOST: below 35.0 V for 50 µs; not recorded. -/
def execInputLost (s : State) : Host.Outcome State Fault Refusal :=
  if s.railsOn then .next (s.shutdown none none) else .next s

/-- OVERVOLTAGE: above 52.0 V, detected on the input of a module that is off too, unless an over-voltage already holds it off (log
entry 42). -/
def execOvervoltage (cut : Option Nat) (s : State) : Host.Outcome State Fault Refusal :=
  if (s.canTrip || !s.power.latched.contains caOvervoltage) && cutOk cut then .next (s.shutdown (some (caOvervoltage, 0)) cut) else .next s

/-- OVERCURRENT: the current limit, which has been entered, has held for more than 2 ms (R444). -/
def execOvercurrent (cut : Option Nat) (s : State) : Host.Outcome State Fault Refusal :=
  if s.canTrip && s.power.limited && cutOk cut then .next (s.shutdown (some (caOvercurrent, 0)) cut) else .next s

/-- RAIL_SHORT of a rail, 0 to 7; a rail that fails to reach regulation at power-up gives it too (R447, R451). -/
def execRailShort (rail : Nat) (cut : Option Nat) (s : State) : Host.Outcome State Fault Refusal :=
  if s.canTrip && decide (rail ≤ 7) && cutOk cut then .next (s.shutdown (some (caRailShort, rail)) cut) else .next s

/-- THERMAL_SHUTDOWN: a sensor of a die kind reaches 115 °C: 0 compute stack, 1 port die, 2 hub die. -/
def execThermalShutdown (die : Nat) (cut : Option Nat) (s : State) : Host.Outcome State Fault Refusal :=
  if s.canTrip && decide (die ≤ 2) && cutOk cut then .next (s.shutdown (some (caThermal, die)) cut) else .next s

/-! ### Detectors and their arming (R447, R455) -/

/-- A detector that has fired fires again only once it is armed: a reading inside its re-arming level since then arms it (`back`). -/
def State.armed (s : State) (bit : Nat) (back : Bool) : Bool := !s.power.fired.contains bit || back

/-- A detector fires. -/
def State.fire (s : State) (bit : Nat) : State :=
  { s with power := { s.power with fired := if s.power.fired.contains bit then s.power.fired else s.power.fired ++ [bit] } }

/-- A reading arms the detectors in whose re-arming range it lies. -/
def State.arm (s : State) (bits : List Nat) : State := { s with power := { s.power with fired := s.power.fired.filter (fun b => !bits.contains b) } }

/-- A temperature reading below a level, the reading being two's complement in 8 bits (R465). -/
def coolerThan (reading level : Nat) : Bool := decide (reading % 256 < level) || decide (128 ≤ reading % 256)

/-- The current limit in mA at an input voltage in mV: the lesser of 85 A and the current that draws 3,000 W (R443, R444). -/
def currentLimitMa (mv : Nat) : Nat := if mv = 0 then 85000 else min 85000 (3000000000 / mv)

/-! ### Input levels (R444, R446, R447, R463) -/

/-- A power event with its status bit: recorded in every function's copy and reported to every function (R440, R464). -/
def State.powerEvent (s : State) (bit code d0 d1 : Nat) : State := (s.powerStatus bit).eventAll code .device d0 d1

/-- INPUT_LOW at a voltage in mV; `back` is the highest voltage since the last one, which arms the detector above 38.5 V. -/
def execInputLow (mv back : Nat) (s : State) : Host.Outcome State Fault Refusal :=
  if s.power.good && decide (mv < 38000) && s.armed 0 (decide (38500 < back)) then
    .next (((s.setField 0 0x90018 15 0 mv).fire 0).powerEvent 0 0x0602 mv 0)
  else .next s

/-- INPUT_HIGH at a voltage in mV; `back` is the lowest voltage since the last one, which arms the detector below 49.5 V. -/
def execInputHigh (mv back : Nat) (s : State) : Host.Outcome State Fault Refusal :=
  if s.power.good && decide (50000 < mv) && s.armed 1 (decide (back < 49500)) then
    .next (((s.setField 0 0x90018 15 0 mv).fire 1).powerEvent 1 0x0603 mv 0)
  else .next s

/-- CURRENT_LIMIT: at an input of `mv` mV the current, `ma` mA, reaches the limit and is held there (R444). -/
def execCurrentLimit (mv ma : Nat) (s : State) : Host.Outcome State Fault Refusal :=
  if s.power.good && decide (currentLimitMa mv ≤ ma) then
    let s1 := (s.setField 0 0x90018 15 0 mv).setField 0 0x90018 31 16 (ma / 10)
    .next ({ s1 with power := { s1.power with limited := true } }.powerEvent 2 0x0604 ma 0)
  else .next s

/-- RAMP_EXCEEDED: the rise over the last 1 ms, in mA, above the 2 A that the input stage allows. -/
def execRampExceeded (ma : Nat) (s : State) : Host.Outcome State Fault Refusal :=
  if s.power.good && decide (2000 < ma) then .next (s.powerEvent 3 0x0605 ma 0) else .next s

/-! ### Temperatures (R455) -/

/-- The PWR_TEMP fields of the highest junction temperature. -/
def State.junction (s : State) (temp source : Nat) : State := (s.setField 0 0x90030 7 0 temp).setField 0 0x90030 14 8 source

/-- THERMAL_HIGH: a junction sensor reaches 105 °C: region 0 to 63, 64 port die A, 65 port die B, 66 hub die.  `back` is the lowest value of
the highest junction temperature since the last one, which arms the detector below 100 °C. -/
def execThermalHigh (temp source back : Nat) (s : State) : Host.Outcome State Fault Refusal :=
  if s.power.good && decide (105 ≤ temp) && decide (source ≤ 66) && s.armed 4 (coolerThan back 100) then
    let s1 := (((s.junction temp source).fire 4).powerEvent 4 0x0606 temp source).lowerRequest 2
    .next { s1 with power := { s1.power with thermalAt := some s.clk.tick } }
  else .next s

/-- THERMAL_HIGH_REPEAT: every 1 s while a sensor stays at or above 105 °C the request is raised again. -/
def execThermalHighRepeat (s : State) : Host.Outcome State Fault Refusal :=
  match s.power.thermalAt with
  | some t =>
    let s1 := (s.advanceTo (t + ticksPerSecond)).lowerRequest 2
    .next { s1 with power := { s1.power with thermalAt := some s1.clk.tick } }
  | none => .next s

/-- COOLANT_HOT: the inlet exceeds 45 °C; `back` is its lowest temperature since the last one, which arms the detector at 44 °C. -/
def execCoolantHot (temp back : Nat) (s : State) : Host.Outcome State Fault Refusal :=
  if s.power.good && decide (45 < temp) && s.armed 5 (coolerThan back 45) then
    .next (((s.setField 0 0x90030 23 16 temp).fire 5).powerEvent 5 0x0607 temp 0)
  else .next s

/-- COOLANT_COLD: the inlet is below 17 °C; `back` is its highest temperature since the last one, which arms the detector at 18 °C. -/
def execCoolantCold (temp back : Nat) (s : State) : Host.Outcome State Fault Refusal :=
  if s.power.good && decide (temp < 17) && s.armed 6 (!coolerThan back 18) then
    .next (((s.setField 0 0x90030 23 16 temp).fire 6).powerEvent 6 0x0608 temp 0)
  else .next s

/-! ### The power cap (R456, R462, R464) -/

/-- CAP_W. -/
def State.capW (s : State) : Nat := s.field 0 0x90008 11 0

/-- A value of the power cap that a write may set. -/
def capOk (w : Nat) : Bool := decide (500 ≤ w) && decide (w ≤ 3000)

/-- PWR_CAP_WRITE by a function; `other` is what the PLDM effecter writes in the same control-clock cycle: the lower value is kept. -/
def execPwrCapWrite (fn : Nat) (v : W64) (lo : Bool) (other : Option Nat) (s : State) : Host.Outcome State Fault Refusal :=
  let w := getBits v 11 0
  let mine := if s.functions.contains fn && s.isOwner fn && lo && capOk w then [w] else []
  let theirs := match other with | some x => if s.power.good && capOk x then [x] else [] | none => []
  match mine ++ theirs with
  | [] => .next s
  | a :: r => .next (s.setField 0 0x90008 11 0 (r.foldl min a))

/-- PLDM_POWER_CAP_SET through effecter 30. -/
def execPldmPowerCapSet (w : Nat) (s : State) : Host.Outcome State Fault Refusal :=
  if s.mgmtRuns then .next ((if capOk w then s.setField 0 0x90008 11 0 w else s).answer .ok) else .next s

/-- A 1 ms average of the input power, in W, in the registers: PIN and the largest since it was cleared; an average at or below the cap ends
an excess (R456, R465). -/
def State.average (s : State) (w : Nat) : State :=
  let s1 := (s.setField 0 0x90018 47 32 w).setField 0 0x90020 15 0 (max w (s.field 0 0x90020 15 0))
  if w ≤ s.capW then { s1 with power := { s1.power with capAt := none } } else s1

/-- What the input can draw in W: the current limit holds it at 3,000 W (R443, R453). -/
def powerOk (w : Nat) : Bool := decide (w ≤ 3000)

/-- POWER_CAP_EXCEEDED: of the 1 ms averages that have come, oldest first, the last 5 exceed the cap.  Where the excess has persisted since
the last request, this one comes no sooner than 1 s after it. -/
def execPowerCapExceeded (avgs : List Nat) (s : State) : Host.Outcome State Fault Refusal :=
  if s.power.good && decide (5 ≤ avgs.length) && avgs.all powerOk && (avgs.drop (avgs.length - 5)).all (fun a => decide (s.capW < a)) then
    let s0 := avgs.foldl State.average s
    let s1 := match s0.power.capAt with | some t => s0.advanceTo (t + ticksPerSecond) | none => s0
    let s2 := (s1.powerStatus 7).lowerRequest 1
    .next { s2 with power := { s2.power with capAt := some s2.clk.tick } }
  else .next s

/-! ### PLDM sensors (R462) -/

/-- The state sensor: 1 booting, 2 running, 3 boot hold, which a failed check brings (R370), 4 control-core fault. -/
def State.pldmState (s : State) : Nat :=
  if s.faults.coreFault then 4
  else if s.field 0 0x1000 12 12 = 1 ∧ s.field 0 0x1000 11 4 ≠ 0 ∧ s.boot.active then 3
  else if s.boot.active then 1 else 2

/-- Whether a numeric sensor can read so: the current limit bounds current and power (R443, R453), and a junction temperature names its
sensor (R465). -/
def sensorOk (id reading source : Nat) : Bool :=
  if id = 2 then decide (reading ≤ 85000) else if id = 3 then powerOk reading else if id = 5 then decide (source ≤ 66) else true

/-- What a sensor reads now goes into the PWR register that shows the same quantity: voltage in mV, current in mA, power in W, temperatures
in °C.  It arms the detectors in whose re-arming range it lies, and ends a current limit that the current has left, an excess of the cap and
the time at or above 105 °C (R444, R447, R455, R456, R462, R465). -/
def State.sensed (s : State) (id reading source : Nat) : State :=
  match id with
  | 1 => (s.setField 0 0x90018 15 0 reading).arm ((if 38500 < reading then [0] else []) ++ (if reading < 49500 then [1] else []))
  | 2 =>
    let s1 := s.setField 0 0x90018 31 16 (reading / 10)
    if reading < currentLimitMa (s.field 0 0x90018 15 0) then { s1 with power := { s1.power with limited := false } } else s1
  | 3 => s.average reading
  | 4 => s.bumpAt 0 0x90028 47 0 (reading - s.field 0 0x90028 47 0)
  | 5 =>
    let s1 := (s.junction reading source).arm (if coolerThan reading 100 then [4] else [])
    if coolerThan reading 105 then { s1 with power := { s1.power with thermalAt := none } } else s1
  | 6 => (s.setField 0 0x90030 23 16 reading).arm
      ((if coolerThan reading 45 then [5] else []) ++ (if coolerThan reading 18 then [] else [6]))
  | 7 => s.setField 0 0x90030 31 24 reading
  | 8 => s.setField 0 0x90030 39 32 reading
  | _ => s

/-- PLDM_SENSOR_READ: `reading` is what a numeric sensor measures, and `source` the sensor with the highest junction temperature (log
entry 45); the energy is answered as JOULES counts it, and the state sensor and the effecter are read from the state. -/
def execPldmSensorRead (id reading source : Nat) (s : State) : Host.Outcome State Fault Refusal :=
  if !s.mgmtRuns then .next s
  else if id = 4 then .next ((s.sensed 4 reading source).answer (.reading ((s.sensed 4 reading source).field 0 0x90028 47 0)))
  else if 1 ≤ id ∧ id ≤ 8 then
    (if sensorOk id reading source then .next ((s.sensed id reading source).answer (.reading reading)) else .next s)
  else if id = 20 then .next (s.answer (.reading s.pldmState))
  else if id = 30 then .next (s.answer (.reading s.capW))
  else .next (s.answer .error)

end Sys2Proof.Machine
end

