-- ==== Sys2Proof/Machine/Registers.lean ====
section
/-!
DEFINITION. Writes and reads of the setup registers (R6 to R9, R33, R138, R190, R226, R265, R396, R398, R437 to R442, R464) and the
event ring's own registers and interrupt (R440, R441).
-/
namespace Sys2Proof.Machine

/-! ### Accesses (R7, R8) -/

/-- A write of `size` bytes at an offset: the register, the data in its place, and the bits written; none where R7 does not allow it. -/
def regAccess (off : Nat) (v : W64) (size : Nat) : Option (Nat × W64 × W64) :=
  if size = 8 ∧ off % 8 = 0 then some (off, v, 0xFFFFFFFFFFFFFFFF#64)
  else if size = 4 ∧ off % 8 = 0 then some (off, v &&& 0xFFFFFFFF#64, 0xFFFFFFFF#64)
  else if size = 4 ∧ off % 8 = 4 then some (off - 4, v <<< 32, 0xFFFFFFFF00000000#64)
  else none

/-- A mask of a field's bits. -/
def RegField.mask (f : RegField) : W64 := BitVec.ofNat 64 ((2 ^ (f.hi + 1 - f.lo) - 1) * 2 ^ f.lo)

/-- A mask of every field of a register with some access. -/
def accessMask (off : Nat) (a : FieldAccess) : W64 :=
  match regRow off with
  | some r => (r.fields.filter (fun f => f.access == a)).foldl (fun m f => m ||| f.mask) 0
  | none => 0

/-- The block of a register, numbered in the row order of R6 (R439). -/
def blockOf (off : Nat) : Nat := if off < 0x1000 then 0 else off / 0x10000 + 1

/-! ### Who may see and write what -/

/-- The region that a per-region register belongs to. -/
def regionReg (off : Nat) : Option Nat :=
  if 0x31000 ≤ off ∧ off < 0x31400 then some ((off - 0x31000) / 16)
  else if 0x50400 ≤ off ∧ off < 0x50600 then some ((off - 0x50400) / 8)
  else if 0x50600 ≤ off ∧ off < 0x50800 then some ((off - 0x50600) / 8)
  else if 0x81000 ≤ off ∧ off < 0x81800 then some ((off - 0x81000) / 32)
  else none

/-- The port that a per-port register belongs to. -/
def portRegOf (off : Nat) : Option Nat := if 0x40400 ≤ off ∧ off < 0x40A00 then some ((off - 0x40400) / 64) else none

/-- The vault decoder that a register belongs to. -/
def decoderReg (off : Nat) : Option Nat := if 0x50C00 ≤ off ∧ off < 0x50D00 then some ((off - 0x50C00) / 16) else none

/-- The tables that host software writes only outside domain mode (R265). -/
def linkTable (off : Nat) : Bool :=
  (decide (0x41000 ≤ off) && decide (off < 0x4E000)) || (match portRegOf off with | some p => off == 0x40430 + 64 * p | none => false)

/-- Whether a function shows a register (R33, R138, R190, R226, R265, R366, R442). -/
def State.sees (s : State) (fn off : Nat) : Bool :=
  if s.functions.contains fn then
    (match regionReg off with | some r => s.partOfRegion r == fn | none => true) &&
    (match decoderReg off with
      | some d => s.nparts == 1 || s.field 0 (0x50C00 + 16 * d) 31 29 == fn
      | none => true) &&
    (blockOf off != 5 || s.nparts == 1 || (match portRegOf off with | some p => s.portOwner p == some fn | none => false)) &&
    (blockOf off != 8 || s.debug || off == 0x70000)
  else s.bootFunction && fn == 0 && decide (off < 0x10000)

/-- Whether a function's write of a register can have an effect (R9, R265, R361, R362, R396, R441, R464). -/
def State.mayWrite (s : State) (fn off : Nat) : Bool :=
  s.sees fn off &&
  (if bootSources.contains off then s.bootFunction else true) &&
  !(linkTable off && s.domainMode) &&
  (blockOf off != 8 || s.debug) &&
  (!([0x90008, 0x90010, 0x90020, 0x90028].contains off) || s.isOwner fn) &&
  !(decide (0x10400 ≤ off) && decide (off < 0x10C00) && s.queueOn fn ((off - 0x10400) / 32)) &&
  !(decide (0x20100 ≤ off) && decide (off < 0x20500) && s.hatchOn fn ((off - 0x20100) / 64)) &&
  !(off == 0x60010 && s.field fn 0x60008 0 0 == 1)

/-! ### Fields (R9, R437 to R439) -/

/-- Store the read-write fields of a register. -/
def State.storeFields (s : State) (fn off : Nat) (v m : W64) : State :=
  let w := m &&& accessMask off .rw
  s.setReg fn off ((s.reg fn off &&& ~~~w) ||| (v &&& w))

/-- Clear status bits; a bit that hardware sets in the same control-clock cycle stays 1, and the race is counted (R439). -/
def State.clearStatus (s : State) (fn off : Nat) (v m race : W64) : State :=
  let w := accessMask off .w1c
  let s0 := s.setReg fn off ((s.reg fn off &&& ~~~(v &&& m &&& w)) ||| (race &&& w))
  let s1 := if off = 0x90000 then (List.range 8).foldl (fun (u : State) f => u.setReg f off (u.reg f off ||| (race &&& w))) s0 else s0
  if v &&& m &&& w &&& race = 0 then s1 else s1.bump fn (0x80100 + 8 * blockOf off) 31

/-- Clear one counter field if the write covers a bit of it and writes 0 to every bit of it that it covers (R437); `more` increments
of the same cycle come after it (R438). -/
def State.clearField (s : State) (fn off : Nat) (v m : W64) (more : Nat) (f : RegField) : State :=
  let w := m &&& f.mask
  let s1 := if w = 0 ∨ v &&& w ≠ 0 then s
    else
      let s1 := s.setField fn off f.hi f.lo 0
      if (regRow off).any (fun r => r.fields.any (fun g => g.hi == 63 && g.lo == 63 && g.access == .ro)) then s1.setField fn off 63 63 0 else s1
  if more = 0 then s1 else s1.bumpAt fn off f.hi f.lo more

/-- Clear the counter fields of a register. -/
def State.clearCounters (s : State) (fn off : Nat) (v m : W64) (more : Nat) : State :=
  match regRow off with
  | some r => (r.fields.filter (fun f => f.access == .cnt)).foldl (fun (u : State) f => u.clearField fn off v m more f) s
  | none => s

/-! ### The event ring's registers (R440, R441) -/

/-- A write of EVT_CFG: SIZE_LOG2 stands while EN is 1; EN = 1 with a size outside 6 to 16 leaves EN at 0; enabling resets the ring. -/
def State.evtCfg (s : State) (fn : Nat) (v : W64) : State :=
  let on := s.field fn 0x60008 0 0 == 1
  let s1 := s.setField fn 0x60008 6 6 (getBits v 6 6)
  let s2 := if on then s1 else s1.setField fn 0x60008 5 1 (getBits v 5 1)
  let k := s2.field fn 0x60008 5 1
  if !(v.getLsbD 0) then s2.setField fn 0x60008 0 0 0
  else if on || decide (k < 6) || decide (16 < k) then s2
  else
    let s3 := (s2.setField fn 0x60008 0 0 1).setReg fn 0x60018 (BitVec.ofNat 64 (2 ^ 32))
    { s3 with faults := { s3.faults with evtUnread := mset 0 s3.faults.evtUnread fn 0 } }

/-- A write of EVT_POS.HEAD: the records from HEAD to TAIL are unconsumed. -/
def State.evtHead (s : State) (fn : Nat) (v : W64) : State :=
  let size := 2 ^ s.field fn 0x60008 5 1
  let s1 := s.setField fn 0x60018 15 0 (getBits v 15 0)
  let n := (s.field fn 0x60018 31 16 + size - getBits v 15 0 % size) % size
  { s1 with faults := { s1.faults with evtUnread := mset 0 s1.faults.evtUnread fn n } }

/-- EVENT_RING_ENABLE: a write of EVT_CFG with EN = 1. -/
def execEventRingEnable (fn : Nat) (v : W64) (lo : Bool) (s : State) : Host.Outcome State Fault Refusal :=
  if s.functions.contains fn && lo && v.getLsbD 0 then .next (s.evtCfg fn v) else .next s

/-- EVT_HEAD_WRITE. -/
def execEvtHeadWrite (fn : Nat) (v : W64) (lo : Bool) (s : State) : Host.Outcome State Fault Refusal :=
  if s.functions.contains fn && lo then .next (s.evtHead fn v) else .next s

/-- EVENT_INTERRUPT: vector 64 after records, at most once every 10 µs. -/
def execEventInterrupt (fn : Nat) (s : State) : Host.Outcome State Fault Refusal :=
  if s.functions.contains fn && s.faults.evtDue.contains fn && s.field fn 0x60008 6 6 == 1 then
    let s1 := match mfind s.faults.evtIntAt fn with | some t => s.advanceTo (t + 10 * ticksPerUs) | none => s
    let f := { s1.faults with
      evtDue := s1.faults.evtDue.filter (fun x => decide (x ≠ fn))
      evtIntAt := mput s1.faults.evtIntAt fn s1.clk.tick }
    .next ({ s1 with faults := f }.toHost fn (.interrupt fn 64))
  else .next s

/-! ### DETM_CTRL (R398, R415) -/

/-- Whether a write of DET takes effect now: no plan runs, no domain is active, and no live request has APPROX_P; a start that only pends runs
no plan yet (R398). -/
def State.detWritable (s : State) : Bool :=
  s.dom.isNone && s.ctxs.all (fun p => p.2.phase != .running && p.2.reqs.all (fun r => !r.2.approxP))

/-- A write of DET by a function: another than the owner's, or one at another time, sets WRITE_IGNORED. -/
def State.writeDet (s : State) (fn : Nat) (v : W64) : State :=
  if s.isOwner fn && s.detWritable then s.setField 0 0xA0000 0 0 (getBits v 0 0) else s.status fn 0xA0008 2

/-- DET_WRITE. -/
def execDetWrite (fn : Nat) (v : W64) (lo : Bool) (s : State) : Host.Outcome State Fault Refusal :=
  if s.functions.contains fn && lo then .next (s.writeDet fn v) else .next s

/-! ### The general writes -/

/-- COUNTER_CLEAR: a write that reaches counter fields; `more` increments reach them in the same cycle (R437, R438). -/
def execCounterClear (fn off : Nat) (v : W64) (size more : Nat) (s : State) : Host.Outcome State Fault Refusal :=
  match regAccess off v size with
  | some (o, d, m) => if s.mayWrite fn o then .next (s.clearCounters fn o d m more) else .next s
  | none => .next s

/-- STATUS_W1C: a write that reaches status bits; `race` are the bits that hardware sets in the same cycle (R439). -/
def execStatusW1c (fn off : Nat) (v : W64) (size : Nat) (race : W64) (s : State) : Host.Outcome State Fault Refusal :=
  match regAccess off v size with
  | some (o, d, m) => if s.mayWrite fn o then .next (s.clearStatus fn o d m race) else .next s
  | none => .next s

/-- A write of DBG_CTRL (R142).  That RESUME goes before STEP where one write has both is DESIGN CHOICE (log entry 75). -/
def State.writeDbg (fn : Nat) (v : W64) (s : State) : Host.Outcome State Fault Refusal :=
  if v.getLsbD 1 && !(s.unit fn).halted then execDbgHaltReq fn s
  else if v.getLsbD 2 then execDbgResume fn s
  else if v.getLsbD 3 then execDbgStep fn s
  else .next s

/-- REGISTER_WRITE: an aligned 32-bit or 64-bit write of a setup register.  A register whose write is a command of its own acts as that
command; in every other one the read-write fields are stored, status bits and counters are cleared, and other fields stay (R7 to R9). -/
def execRegisterWrite (fn off : Nat) (v : W64) (size : Nat) (s : State) : Host.Outcome State Fault Refusal :=
  match regAccess off v size with
  | none => .next s
  | some (o, d, m) =>
    let lo := m.getLsbD 0
    if o = 0x1200 then (if s.mayWrite fn o && lo then .next (s.bootCtl d) else .next s)
    else if !(s.functions.contains fn) then (if s.mayWrite fn o then .next (s.storeFields fn o d m) else .next s)
    else if o = 0x30000 then execBeatCfgWrite fn d lo (m.getLsbD 63) s
    else if 0x10400 ≤ o ∧ o < 0x10C00 ∧ o % 32 = 0 then
      (if d.getLsbD 0 then execQueueEnable fn ((o - 0x10400) / 32) d lo s else execQueueDisable fn ((o - 0x10400) / 32) d lo s)
    else if 0x20100 ≤ o ∧ o < 0x20500 ∧ o % 64 = 0 then
      (if d.getLsbD 0 then execHatchEnable fn ((o - 0x20100) / 64) d lo s else execHatchDisable fn ((o - 0x20100) / 64) d lo s)
    else if o = 0x60008 then (if lo then .next (s.evtCfg fn d) else .next s)
    else if o = 0x60018 then (if lo then .next (s.evtHead fn d) else .next s)
    else if o = 0xA0000 then (if lo then .next (s.writeDet fn d) else .next s)
    else if o = 0x90008 then execPwrCapWrite fn d lo none s
    else if o = 0x70000 then (if s.mayWrite fn o && lo then State.writeDbg fn d s else .next s)
    else if o = 0x70300 ∧ d.getLsbD 63 then execDbgPeek fn ((s.reg fn o &&& ~~~m) ||| (d &&& m)) s
    else if 0x40400 ≤ o ∧ o < 0x40A00 ∧ o % 64 = 0x38 then
      (if d.getLsbD 0 then execLinkRetrain fn ((o - 0x40400) / 64) s else .next s)
    else if s.mayWrite fn o then
      .next (((s.storeFields fn o d m).clearStatus fn o d m 0).clearCounters fn o d m 0)
    else .next s

/-! ### Functions and their BARs (R326, R327, R366) -/

/-- Whether a function is presented: a partition function, or the boot function, which stands at function 0 (R326, R366). -/
def State.present (s : State) (fn : Nat) : Bool := s.functions.contains fn || (s.bootFunction && fn == 0)

/-- The class code and the device ID that a presented function has; its vendor ID is the one that Amioz holds (R326, R366). -/
def State.functionIds (s : State) (fn : Nat) : Option (Nat × Nat) := if s.present fn then some (0x120000, 0x0002) else none

/-- Whether a function has a DOE mailbox: the boot function has none (R326, R366). -/
def State.hasMailbox (s : State) (fn : Nat) : Bool := s.functions.contains fn

/-- Whether an interrupt vector of a function is pending: it has been raised and waits for the function's port (R326; log entry 50). -/
def State.vectorPending (s : State) (fn v : Nat) : Bool := s.host.unflushed.any (fun w => w.1 == fn && w.2.1 == .interrupt fn v)

/-- The 64 bits of BAR2 at an aligned offset: a doorbell register, which reads the last value written, the MSI-X table, or the pending-bit
array (R326, R327). -/
def State.bar2Word (s : State) (fn off : Nat) : Nat :=
  if off < 0x40000 then
    let q := s.queue fn (off / 4096)
    if off % 4096 = 0 then q.sqTail else if off % 4096 = 8 then q.cqHead else 0
  else if off < 0x40000 + 16 * 65 then
    ((mget 0 s.host.msix (fn * 65 + (off - 0x40000) / 16) : BitVec 128).toNat / 2 ^ (8 * (off % 16))) % 2 ^ 64
  else if off = 0x41000 then (List.range 64).foldl (fun a v => if s.vectorPending fn v then a + 2 ^ v else a) 0
  else if off = 0x41008 then (if s.vectorPending fn 64 then 1 else 0)
  else 0

/-- The value that an aligned read of BAR2 gives: `size` bytes at an offset; any other offset follows R8 (R326, R327). -/
def State.readBar2 (s : State) (fn off size : Nat) : W64 :=
  if !s.functions.contains fn || decide (0x80000 ≤ off) then 0
  else if size = 8 ∧ off % 8 = 0 then BitVec.ofNat 64 (s.bar2Word fn off)
  else if size = 4 ∧ off % 4 = 0 then BitVec.ofNat 64 (s.bar2Word fn (off / 8 * 8) / 2 ^ (8 * (off % 8)) % 2 ^ 32)
  else 0

/-! ### Reads -/

/-- A field laid over a word. -/
def shows (v : W64) (hi lo n : Nat) : W64 := putBits v hi lo n

def bit (b : Bool) : Nat := if b then 1 else 0

/-- The BEAT block's registers that show the clocks (R192). -/
def State.showBeat (s : State) (fn o : Nat) (v : W64) : W64 :=
  let x := s.unit fn
  match o with
  | 0x30000 => match x.pend with
    | some (k, sl) => BitVec.ofNat 64 (k + sl * 2 ^ 8 + 2 ^ 24)
    | none => BitVec.ofNat 64 (x.k + x.slack * 2 ^ 8)
  | 0x30010 => BitVec.ofNat 64 (s.clk.op + ((s.clk.opPend.map (fun p => p.op * 4 + 16)).getD 0) + bit (s.isOwner fn) * 32)
  | 0x30018 => BitVec.ofNat 64 ((s.clk.opPend.map (·.frame)).getD 0)
  | 0x30020 => BitVec.ofNat 64 s.clk.tick
  | 0x30028 => BitVec.ofNat 64 s.clk.frame
  | 0x30030 => BitVec.ofNat 64 (s.clk.frame + s.clk.offset)
  | 0x30038 => BitVec.ofNat 64 ((x.nextSlot - 1) + s.slotsPerFrame fn * 2 ^ 10 + min x.debt 1023 * 2 ^ 20 +
      bit (!(s.running fn).isEmpty) * 2 ^ 30 + bit x.landing * 2 ^ 31)
  | 0x30040 => BitVec.ofNat 64 x.planBeat
  | 0x30050 => shows (shows (shows v 0 0 (bit (s.clk.locked && !s.clk.holdover))) 1 1 (bit s.clk.markAcq)) 2 2 (bit s.clk.holdover)
  | _ => if 0x31000 ≤ o ∧ o < 0x31400 ∧ o % 16 = 0 then shows v 36 36 (bit (s.region ((o - 0x31000) / 16)).done) else v

/-- The MEM block's registers that show bindings and sites (R227). -/
def State.showMem (s : State) (o : Nat) (v : W64) : W64 :=
  if 0x50400 ≤ o ∧ o < 0x50600 then
    match (s.region ((o - 0x50400) / 8)).bound with
    | some c =>
      let x := s.ctx c
      BitVec.ofNat 64 (x.base / 2 ^ 21 + x.params.extentBytes / 2 ^ 21 * 2 ^ 20 + x.keySlot * 2 ^ 40 + 2 ^ 50)
    | none => 0
  else if 0x50600 ≤ o ∧ o < 0x50800 then
    let r := (o - 0x50600) / 8
    shows v 44 32 ((s.boot.fuses.slots.filter (fun x => x.valid && entryKind x.entry == 2 && entryRegion x.entry == r)).length)
  else if 0x50800 ≤ o ∧ o < 0x50980 then
    let i := (o - 0x50800) / 32
    if !s.sites.contains i then 0
    else if o % 32 = 0x10 then
      let x := s.site i
      BitVec.ofNat 64 (x.retired.length + bit (decide (4096 ≤ x.retired.length)) * 2 ^ 13 + bit x.hot * 2 ^ 14)
    else v
  else v

/-- What a register shows to a function that sees it. -/
def State.shown (s : State) (fn o : Nat) : W64 :=
  let v := s.reg fn o
  if o = 0x28 ∧ s.domainMode = true then BitVec.ofNat 64 (1 + 0xFF * 2 ^ 8)
  else match blockOf o with
  | 2 => if 0x10400 ≤ o ∧ o < 0x10C00 ∧ o % 32 = 0 then shows v 8 8 (bit (s.queue fn ((o - 0x10400) / 32)).executing.isEmpty) else v
  | 4 => s.showBeat fn o v
  | 5 => if o = 0x40028 then
      let held := fun (d : Nat) => (s.link.held.filter (fun h => h.die == d)).length
      BitVec.ofNat 64 (min (held 0) 511 + min (held 1) 511 * 2 ^ 9)
    else v
  | 6 => s.showMem o v
  | 7 =>
    if o = 0x60040 then BitVec.ofNat 64 ((List.range 64).foldl (fun a r => a + bit (s.region r).fenced * 2 ^ r) 0)
    else if o = 0x60048 then BitVec.ofNat 64 (min s.faults.repairs.length 65535)
    else if 0x61000 ≤ o ∧ o < 0x61800 then s.faults.repairs.getD ((o - 0x61000) / 8) 0
    else v
  | 8 => if o = 0x70000 then (if s.debug then BitVec.ofNat 64 (1 + bit (s.unit fn).halted * 16) else 0) else v
  | 11 => if o = 0xA0000 then s.reg 0 o else v
  | _ => v

/-- The value that a read of a register gives: `size` bytes at an offset (R7, R8, R9). -/
def State.readReg (s : State) (fn off size : Nat) : W64 :=
  match regAccess off 0 size with
  | none => 0
  | some (o, _, m) =>
    if (regRow o).isNone || !(s.sees fn o) then 0
    else
      let v := s.shown fn o &&& m
      if off % 8 = 4 then v >>> 32 else v

end Sys2Proof.Machine
end

