-- ==== Sys2Proof/Machine/Transcend.lean ====
section
/-!
DEFINITION. The transcendental vector operations (R63, R64).

R63 bounds the error of each and says that its result is a fixed function of its input; it does not say which of the
values within the bound is returned.  The model encloses the exact value, lists the FP32 values within the bound, and
lets a free value pick one (log entry 10).
-/
namespace Sys2Proof.Machine

/-- The number of fraction bits of the enclosures. -/
def encBits : Nat := 192

/-- ⌊ln 2 × 2^192⌋. -/
def ln2Fixed : Nat := 4350955369971217654477563090224794165364344896676135745069

/-- ⌊log2 e × 2^192⌋. -/
def log2eFixed : Nat := 9055943544797870567083544809312461607371518589544137143474

/-- Partial sums of e^t = Σ t^k / k! at 192 fraction bits, each term truncated. -/
def expSeries (t : Nat) : Nat → Nat → Nat → Nat
  | 0, _, _ => 0
  | n + 1, k, term => term + expSeries t n (k + 1) (term * t / 2 ^ encBits / (k + 1))

/-- An enclosure of 2^(v / 2^192): a pair of mantissas and the exponent they share. -/
def exp2Enclose (v : Int) : Nat × Nat × Int :=
  let i := v / (2 : Int) ^ encBits
  let f := (v % (2 : Int) ^ encBits).toNat
  let s := expSeries (f * ln2Fixed / 2 ^ encBits) 60 0 (2 ^ encBits)
  (s - 2 ^ 20, s + 2 ^ 20, i - (encBits : Int))

/-- ⌊√n⌋, one bit at a time from bit b − 1 down. -/
def isqrt (n : Nat) : Nat → Nat → Nat
  | 0, r => r
  | b + 1, r => let r' := r + 2 ^ b; isqrt n b (if r' * r' ≤ n then r' else r)

/-- A positive FP32 code (extended above the largest finite one) as m × 2^e. -/
def codeValue (c : Nat) : Nat × Int :=
  let ex : Nat := c / 2 ^ 23
  let fr : Nat := c % 2 ^ 23
  if ex = 0 then (fr, -149) else (2 ^ 23 + fr, (ex : Int) - 150)

/-- The greatest FP32 code whose value is at most m × 2^e. -/
def floorCode (m : Nat) (e : Int) : Nat :=
  let top : Int := (bitLen m : Int) - 1 + e
  let q : Int := max top (-126) - 23
  let n := if q ≤ e then m * 2 ^ (e - q).toNat else m / 2 ^ (q - e).toNat
  (q + 149).toNat * 2 ^ 23 + n

/-- Whether the value of code c lies within n ulp of a value enclosed by [lo, hi] × 2^e. -/
def withinUlp (n c lo hi : Nat) (e : Int) : Bool :=
  let (cm, ce) := codeValue c
  let q : Int := max ((bitLen lo : Int) - 1 + e) (-126) - 23
  let s := min e (min ce q)
  let cv := cm * 2 ^ (ce - s).toNat
  let u := n * 2 ^ (q - s).toNat
  decide (cv + u ≥ lo * 2 ^ (e - s).toNat) && decide (cv ≤ hi * 2 ^ (e - s).toNat + u)

/-- The FP32 codes within n ulp of an enclosed positive value. -/
def ulpCandidates (n lo hi : Nat) (e : Int) : List Nat :=
  let c := floorCode lo e
  if c ≥ 0x7F800000 then [0x7F800000]
  else ([c - 2, c - 1, c, c + 1, c + 2, c + 3].filter
    (fun x => withinUlp n x lo hi e && decide (x ≤ 0x7F800000)))

/-- The result the free value picks among the values R63 allows. -/
def pickUlp (op n : Nat) (x : F32) (neg : Bool) (lo hi : Nat) (e : Int) : F32 :=
  let cs := ulpCandidates n lo hi e
  let c := cs.getD (Config.transPick op x % cs.length) 0
  BitVec.ofNat 32 ((if neg then 2 ^ 31 else 0) + c)

/-- exp2 (R63: 1 ulp; R64). -/
def fexp2 (x : F32) : F32 :=
  match x.num with
  | .nan => nan32
  | .inf neg => if neg then 0#32 else 0x7F800000#32
  | .fin neg m e =>
    if m = 0 then 0x3F800000#32
    else if (bitLen m : Int) + e > 9 then
      (if neg then pickUlp 0 1 x false 1 1 (-400) else 0x7F800000#32)
    else
      let v : Int := (if neg then -1 else 1) * ((m * 2 ^ (e + encBits).toNat : Nat) : Int)
      let (lo, hi, s) := exp2Enclose v
      pickUlp 0 1 x false lo hi s

/-- exp (R63: 2 ulp; R64). -/
def fexp (x : F32) : F32 :=
  match x.num with
  | .nan => nan32
  | .inf neg => if neg then 0#32 else 0x7F800000#32
  | .fin neg m e =>
    if m = 0 then 0x3F800000#32
    else if (bitLen m : Int) + e > 8 then
      (if neg then pickUlp 3 2 x false 1 1 (-400) else 0x7F800000#32)
    else
      let v : Int := (if neg then -1 else 1) * ((m * 2 ^ (e + encBits).toNat : Nat) : Int)
      let (lo, hi, s) := exp2Enclose (v * log2eFixed / (2 : Int) ^ encBits)
      pickUlp 3 2 x false lo hi s

/-- Reciprocal (R63: 1 ulp; R64). -/
def frcp (x : F32) : F32 :=
  match x.num with
  | .nan => nan32
  | .inf neg => if neg then 0x80000000#32 else 0#32
  | .fin neg m e =>
    if m = 0 then (if neg then 0xFF800000#32 else 0x7F800000#32)
    else
      let q := 2 ^ 300 / m
      pickUlp 1 1 x neg q (if 2 ^ 300 % m = 0 then q else q + 1) (-300 - e)

/-- Reciprocal square root (R63: 2 ulp; R64). -/
def frsq (x : F32) : F32 :=
  match x.num with
  | .nan => nan32
  | .inf neg => if neg then nan32 else 0#32
  | .fin neg m e =>
    if m = 0 then (if neg then 0xFF800000#32 else 0x7F800000#32)
    else if neg then nan32
    else
      let m2 := if e % 2 = 0 then m else 2 * m
      let e2 := if e % 2 = 0 then e else e - 1
      let r := isqrt (2 ^ 400 / m2) 201 0
      pickUlp 2 2 x false r (r + 1) (-200 - e2 / 2)

end Sys2Proof.Machine
end

