-- ==== Sys2Proof/Machine/Sampling.lean ====
section
/-!
DEFINITION. The sampling unit: logits, draws, draw records (R313 to R317, R319).
-/
namespace Sys2Proof.Machine

/-- FP32 division, rounded to nearest-even (R63, R314). -/
def fdiv (a b : F32) : F32 :=
  match a.num, b.num with
  | .nan, _ => nan32
  | _, .nan => nan32
  | .inf _, .inf _ => nan32
  | .inf x, .fin y _ _ => BitVec.ofNat 32 (if x != y then 0xFF800000 else 0x7F800000)
  | .fin x _ _, .inf y => if x != y then 0x80000000#32 else 0#32
  | .fin x m e, .fin y n f =>
    if n = 0 then (if m = 0 then nan32 else BitVec.ofNat 32 (if x != y then 0xFF800000 else 0x7F800000))
    else
      let q := m * 2 ^ 64 / n
      let v := 2 * q + (if m * 2 ^ 64 % n = 0 then 0 else 1)
      (Num.fin (x != y) v (e - f - 65)).toF32

/-- ⌊v × 2^40⌋ of a value that is not negative (R314); none of a NaN. -/
def qFloor (v : F32) : Option Nat :=
  match v.num with
  | .nan => none
  | .inf _ => some (2 ^ 168)
  | .fin _ m e => some (if 0 ≤ e + 40 then m * 2 ^ (e + 40).toNat else m / 2 ^ (-(e + 40)).toNat)

/-- Insert a token into a list ordered by falling value, ties to the lower token first. -/
def insertTok (gt : Nat → Nat → Bool) (t : Nat) : List Nat → List Nat
  | [] => [t]
  | x :: xs => if gt t x then t :: x :: xs else x :: insertTok gt t xs

/-- Order tokens, which come in ascending order, by falling value. -/
def sortToks (gt : Nat → Nat → Bool) (l : List Nat) : List Nat := l.foldl (fun a t => insertTok gt t a) []

/-- The shortest prefix whose sum satisfies the TOP_P test. -/
def topPrefix (q : Nat → Nat) (p total : Nat) : Nat → List Nat → List Nat
  | _, [] => []
  | acc, t :: ts =>
    let a := acc + q t
    if a * 65536 ≥ p * total then [t] else t :: topPrefix q p total a ts

/-- The first token, in ascending order, at which the accumulated q exceeds the target. -/
def pickToken (q : Nat → Nat) (target : Nat) : Nat → List Nat → Option Nat
  | _, [] => none
  | acc, t :: ts => if acc + q t > target then some t else pickToken q target (acc + q t) ts

/-- The parameters of a draw. -/
structure DrawSpec where
  temp : F32
  topK : Nat
  topP : Nat
  minP : Nat
  repPen : F32
  freqPen : F32
  approx : Bool
  seed : W64
  position : Nat
  req : Nat
  step : Nat

/-- A draw's outcome (R314). -/
inductive Drawn where
  | token (t : Nat)
  | empty
  deriving DecidableEq, Repr

/-- The draw of R314: `logit t` and `mask t` for t below V, `cnt t` the occurrences of t in the penalty window, and `free n` the free
values that stand for what R314 does not state (log entries 33, 34).  With APPROX_P `dropped t` says which tokens the progressive tests
drop: with TOP_P none but the top one is safe, and with MIN_P alone those that MIN_P keeps against the final maximum are, which any earlier
maximum keeps too (R315). -/
def draw (d : DrawSpec) (v : Nat) (logit : Nat → F32) (mask : Nat → Bool) (cnt : Nat → Nat) (free : Nat → Nat) (dropped : Nat → Bool) : Drawn :=
  let valid := (List.range v).filter (fun t => mask t && !(logit t).isNaN)
  let x : Nat → F32 := fun t =>
    let l := logit t
    if cnt t = 0 then l
    else
      let p := if flt 0#32 l then fdiv l d.repPen else fmul l d.repPen
      fsub p (fmul d.freqPen (f32OfInt (cnt t) 0 false))
  let inf : F32 := 0x7F800000#32
  let usable := valid.filter (fun t => !(feq (x t) ninf32))
  let go := fun (k : List Nat) (q : Nat → Nat) =>
    let total := (k.map q).foldl (· + ·) 0
    let w := philox d.seed (BitVec.ofNat 64 (d.position + d.req * 2 ^ 32)) (BitVec.ofNat 64 d.step)
    let u := (w.getD 1 0).toNat * 2 ^ 32 + (w.getD 0 0).toNat
    match pickToken q (u * total / 2 ^ 64) 0 k with
    | some t => Drawn.token t
    | none => Drawn.token (free 0 % max 1 v)
  let infs := valid.filter (fun t => feq (x t) inf)
  if usable.isEmpty then .empty
  else if !infs.isEmpty then go infs (fun _ => 2 ^ 40)
  else if !(flt 0#32 d.temp) then
    match sortToks (fun a b => flt (x b) (x a)) valid with
    | t :: _ => .token t
    | [] => .empty
  else
    let z := fun (t : Nat) => fdiv (x t) d.temp
    let byZ := fun (a b : Nat) => flt (z b) (z a)
    let kept := if d.topK = 0 then valid else (sortToks byZ valid).take d.topK
    let k0 := valid.filter (fun t => kept.contains t)
    let m := match sortToks byZ k0 with | t :: _ => z t | [] => 0#32
    let q := fun (t : Nat) => match qFloor (fexp (fsub (z t) m)) with
      | some n => n
      | none => free (t + 1) % 2 ^ 41
    let k1 := if d.minP = 0 then k0 else k0.filter (fun t => decide (q t * 65536 ≥ d.minP * 2 ^ 40))
    if d.approx then
      let safe := if d.topP = 0 then k1 else (sortToks (fun a b => decide (q b < q a)) k0).take 1
      go (k0.filter (fun t => safe.contains t || !dropped t)) q
    else
      let k2 := if d.topP = 0 then k1
        else
          let l := topPrefix q d.topP ((k1.map q).foldl (· + ·) 0) 0 (sortToks (fun a b => decide (q b < q a)) k1)
          k1.filter (fun t => l.contains t)
      go k2 q

/-- The key of a slot's and node's logits. -/
def logitKey (e slot node : Nat) : Nat := (e * 4096 + slot) * 65 + node

/-- The logits of a transfer, written over those that have come (R313). -/
def Logits.take (l : Logits) (data : List Byte) (vocab : Nat) (poison : Bool) : Logits :=
  let first := fieldAt data 0 4
  let count := fieldAt data 8 4
  let fmt := fieldAt data 7 1
  let size := if fmt = 0 then 4 else 2
  let n := min count ((data.length - 16) / size)
  let vals := (List.range n).foldl (fun (m : Map (BitVec 32)) i =>
    if first + i < vocab then
      let raw := fieldAt data (16 + size * i) size
      mput m (first + i) (BitVec.ofNat 32 (if fmt = 0 then raw else raw * 65536))
    else m) l.vals
  { vals := vals, poison := l.poison || poison }

/-- LOGIT_DELIVERY: the next hub transfer of a tile arrives at its hub engine.  ENGINE 0 is the sampling unit (R313); what the digest
engine does with a tile's transfer is not stated, and it is taken without effect (log entry 35). -/
def execLogitDelivery (k : Nat) (s : State) : Host.Outcome State Fault Refusal :=
  match (s.tile k).sends.find? (fun x => match x.kind with | .hub _ _ => true | _ => false) with
  | some x =>
    if x.data.length < x.len then .next s
    else
      let s1 := s.modTile k (fun t => { t with sends := t.sends.filter (fun y => y.id != x.id) })
      match x.kind, s.ctxOfTile k with
      | .hub 0 ch, some c =>
        let e := ch % 16
        match (s.ctx c).engine e with
        | some en =>
          if fieldAt x.data 7 1 ≤ 1 ∧ fieldAt x.data 6 1 ≤ 64 ∧ fieldAt x.data 4 2 < en.slots then
            let key := logitKey e (fieldAt x.data 4 2) (fieldAt x.data 6 1)
            .next (s1.modCtx c (fun y => { y with logits := mput y.logits key ((mget {} y.logits key).take x.data en.vocab x.poison) }))
          else .next s1
        | none => .next s1
      | _, _ => .next s1
  | none => .next s

/-- The node of the tree at which a slot's next draw is made. -/
def Req.drawNode (r : Req) : Nat := (r.draw.accepted.getLast?).getD 0

/-- The lowest-numbered child of a node with a token (R319). -/
def treeChild (ns : List (Nat × Nat)) (node tok : Nat) : Option Nat :=
  (findIdx? (fun (p : Nat × Nat) => p.1 == tok && p.2 == node) ns 0).map (fun p => p.1 + 1)

/-- The bytes of a draw record (R313). -/
def DrawRec.bytes (d : DrawRec) : List Byte :=
  let a := d.accepted.flatMap (fun n => leBytes 1 n)
  let t := d.tokens.flatMap (fun n => leBytes 4 n)
  leBytes 1 d.tokens.length ++ leBytes 1 (d.empty.toNat + 2 * d.poisoned.toNat) ++ leBytes 2 0 ++ a ++ List.replicate (16 - a.length) 0 ++
    leBytes 4 0 ++ t ++ List.replicate (68 - t.length) 0 ++ List.replicate 36 0

/-- The key of a free value of a draw: the request, the step and the place in the walk, so that a second attempt of the step and another
run under the conditions of R403 meet the same value (R397, R403, R411; log entry 68). -/
def drawKey (id step depth n : Nat) : Nat := ((step * 65536 + id) * 32 + depth) * 2 ^ 21 + n

/-- DRAW: with all logits of a slot and node present, a lane draws one token; the slot's draw record is written (R313, R314, R319).  A
mask read with poison flags the record as poisoned logits do (R57, R299); `faults` is what the decoders find in the mask's transfers. -/
def execDraw (c e slot : Nat) (faults : List SymFault) (s : State) : Host.Outcome State Fault Refusal :=
  let x := s.ctx c
  match x.plan, x.engine e, (x.reqsBy (fun r => r.live && r.engine == e && r.slot == some slot)).head? with
  | some p, some en, some r =>
    let node := r.drawNode
    let lg := mget {} x.logits (logitKey e slot node)
    if x.phase ≠ .running ∨ en.sample = false ∨ r.last = false ∨ r.draw.ended = true ∨ r.phase ≠ .active ∨ lg.vals.length < en.vocab then .next s
    else
      let (mask, spans, s0) := if r.masked then s.hubRead c (r.recBase + 8192) ((en.vocab + 7) / 8) faults else ([], [], s)
      let bad := !spans.isEmpty
      let win := r.output.take r.penWindow
      let (f, s1) := if r.approxP then s0.drawFree 9 else (0, s0)
      let sp : DrawSpec := { temp := r.temp, topK := r.topK, topP := r.topP, minP := r.minP, repPen := r.repPen, freqPen := r.freqPen,
                             approx := r.approxP, seed := x.params.seed, position := r.passStart + (if r.passDone < r.passLen then r.passDone + r.count
                               else r.pos + 1 - r.passStart) + r.draw.accepted.length, req := r.id, step := s.stepNo c }
      let out := draw sp en.vocab (fun t => mget 0 lg.vals t)
        (fun t => !r.masked || (mask.getD (t / 8) 0).getLsbD (t % 8)) (fun t => win.count t) 
        (fun n => Config.unstated 6 (drawKey r.id (s.stepNo c) r.draw.accepted.length n)) (fun t => f / 2 ^ t % 2 == 1)
      let nans := (lg.vals.filter (fun q => F32.isNaN q.2)).length
      let dr := match out with
        | .empty => { r.draw with empty := true, ended := true, poisoned := r.draw.poisoned || lg.poison || bad, nans := r.draw.nans + nans }
        | .token t =>
          let child := match r.inTree with | some tr => treeChild tr.nodes node t | none => none
          { r.draw with tokens := r.draw.tokens ++ [t], poisoned := r.draw.poisoned || lg.poison || bad, nans := r.draw.nans + nans,
                        accepted := match child with | some n => r.draw.accepted ++ [n] | none => r.draw.accepted
                        ended := child.isNone }
      let s2 := s1.putReq c { r with draw := dr }
      .next (s2.cellarWrite (x.base + p.drawAddr e slot) dr.bytes false)
  | _, _, _ => .next s

/-- REQUEST_DESCRIPTOR_APPLY: descriptors of a running context that are due at its last step boundary take effect (R312).  STEP_COMMIT and
PLAN_START apply what is due in their own place in the boundary actions. -/
def execRequestDescriptorApply (c : Nat) (s : State) : Host.Outcome State Fault Refusal :=
  let x := s.ctx c
  if x.phase = .running ∧ x.step.endDue = none ∧ x.step.starting = none then .next (s.applyDue c x.steps) else .next s

/-- CANCEL_OUTPUT_STOP: the first slot boundary after a cancel of the request executes; an end mark that has passed commits its step
first (R320). -/
def execCancelOutputStop (c id : Nat) (s : State) : Host.Outcome State Fault Refusal :=
  match s.req c id with
  | some r =>
    match r.cancelled && !r.stopped && (s.ctx c).step.endDue.isNone, r.cancels.head?.map (·.1.start) with
    | true, st =>
      let t := s.slotTicks (c / 256)
      let due := st.getD s.clk.tick
      let at_ := s.clk.frameStart + ((due - s.clk.frameStart) / t + 1) * t
      .next ((s.advanceTo (if s.clk.locked then at_ else s.clk.tick)).modReq c id (fun r => { r with stopped := true }))
    | false, _ => .next s
  | none => .next s

/-- CANCEL_EFFECT: at the effect point the request stops drawing; a QUEUED request retires, and so does every request whose plan does not
run.  An end mark that has passed commits its step first, and while a replay is set up the step is the one to be replayed (R320). -/
def execCancelEffect (c id : Nat) (s : State) : Host.Outcome State Fault Refusal :=
  let x := s.ctx c
  match s.req c id with
  | some r =>
    let early := s.domainMode && x.destroying.isNone && r.cancels.all (fun p => decide (x.steps + 1 < p.2))
    if r.stopped = false ∨ r.effect.isSome = true ∨ r.phase = .retired ∨ early = true ∨ x.step.endDue.isSome = true then .next s
    else
      let k := x.steps
      let s1 := s.putReq c { r with effect := some k }
      if x.phase ≠ .running then .next (s1.retire c id stCancelled k k)
      else if r.phase = .queued then
        let s2 := s1.modCtx c (fun y => { y with cancelEnds := y.cancelEnds ++ r.cancels.map (fun p => (p.1, k)) })
        .next ((s2.putReq c { r with effect := some k, cancels := [] }).retire c id stCancelled k k)
      else .next (s1.putReq c { r with effect := some k, phase := .cancelling, draw := { r.draw with ended := true } })
  | none => .next s

end Sys2Proof.Machine
end

