-- ==== Sys2Proof/Machine/Scalar.lean ====
section
/-!
DEFINITION. The scalar and predicate operations of the C slot (R125).
-/
namespace Sys2Proof.Machine

/-- A C-slot operation that writes SD. -/
def State.issueS (s : State) (k : Nat) (w : SlotWord) (op lat : Nat) (f : Tile → W64) : Host.Outcome State Fault Refusal :=
  s.issueReg k .c w op true (fun t => [(lat, 3, .sreg (fld w 37 33) (f t))])

/-- A C-slot operation that writes PD. -/
def State.issueP (s : State) (k : Nat) (w : SlotWord) (op : Nat) (legal : Bool) (f : Tile → Bool) : Host.Outcome State Fault Refusal :=
  s.issueReg k .c w op legal (fun t => [(1, 3, .pred (fld w 37 35) (f t))])

/-- On SA and SB. -/
def Tile.sab (t : Tile) (w : SlotWord) (f : W64 → W64 → W64) : W64 := f (t.sreg (fld w 32 28)) (t.sreg (fld w 27 23))

/-- SMOVI: one quarter of the register from the immediate, the others kept or zeroed. -/
def smovi (w : SlotWord) (old : W64) : W64 :=
  let sh := 16 * fld w 32 31
  let kept : W64 := if flag w 30 then old else 0
  (kept &&& ~~~(0xFFFF#64 <<< sh)) ||| (BitVec.ofNat 64 (fld w 15 0) <<< sh)

/-- SADD (R125). -/
def execSadd (k : Nat) (w : SlotWord) (s : State) : Host.Outcome State Fault Refusal :=
  s.issueS k w 0x10 1 (fun t => t.sab w (fun a b => a + b))

/-- SSUB (R125). -/
def execSsub (k : Nat) (w : SlotWord) (s : State) : Host.Outcome State Fault Refusal :=
  s.issueS k w 0x11 1 (fun t => t.sab w (fun a b => a - b))

/-- SAND (R125). -/
def execSand (k : Nat) (w : SlotWord) (s : State) : Host.Outcome State Fault Refusal :=
  s.issueS k w 0x12 1 (fun t => t.sab w (fun a b => a &&& b))

/-- SOR (R125). -/
def execSor (k : Nat) (w : SlotWord) (s : State) : Host.Outcome State Fault Refusal :=
  s.issueS k w 0x13 1 (fun t => t.sab w (fun a b => a ||| b))

/-- SXOR (R125). -/
def execSxor (k : Nat) (w : SlotWord) (s : State) : Host.Outcome State Fault Refusal :=
  s.issueS k w 0x14 1 (fun t => t.sab w (fun a b => a ^^^ b))

/-- SSHL (R125). -/
def execSshl (k : Nat) (w : SlotWord) (s : State) : Host.Outcome State Fault Refusal :=
  s.issueS k w 0x15 1 (fun t => t.sab w (fun a b => a <<< (b.toNat % 64)))

/-- SSHR (R125). -/
def execSshr (k : Nat) (w : SlotWord) (s : State) : Host.Outcome State Fault Refusal :=
  s.issueS k w 0x16 1 (fun t => t.sab w (fun a b => a >>> (b.toNat % 64)))

/-- SSRA (R125). -/
def execSsra (k : Nat) (w : SlotWord) (s : State) : Host.Outcome State Fault Refusal :=
  s.issueS k w 0x17 1 (fun t => t.sab w (fun a b => a.sshiftRight (b.toNat % 64)))

/-- SMUL (R125). -/
def execSmul (k : Nat) (w : SlotWord) (s : State) : Host.Outcome State Fault Refusal :=
  s.issueS k w 0x18 3 (fun t => t.sab w (fun a b => a * b))

/-- SADDI: a signed 23-bit immediate (R125). -/
def execSaddi (k : Nat) (w : SlotWord) (s : State) : Host.Outcome State Fault Refusal :=
  s.issueS k w 0x19 1 (fun t => t.sreg (fld w 32 28) + (w.extractLsb' 0 23).signExtend 64)

/-- SMOVI (R125). -/
def execSmovi (k : Nat) (w : SlotWord) (s : State) : Host.Outcome State Fault Refusal :=
  s.issueS k w 0x1A 1 (fun t => smovi w (t.sreg (fld w 37 33)))

/-- SMVLC (R125). -/
def execSmvlc (k : Nat) (w : SlotWord) (s : State) : Host.Outcome State Fault Refusal :=
  s.issueS k w 0x1B 1 (fun t => (t.lcReg (fld w 32 31)).setWidth 64)

/-- PCMP (R125). -/
def execPcmp (k : Nat) (w : SlotWord) (s : State) : Host.Outcome State Fault Refusal :=
  s.issueP k w 0x20 (decide (fld w 24 22 < 6)) (fun t => condHolds (fld w 24 22) (t.sreg (fld w 34 30)) (t.sreg (fld w 29 25)))

/-- PCMPI: a signed 16-bit immediate (R125). -/
def execPcmpi (k : Nat) (w : SlotWord) (s : State) : Host.Outcome State Fault Refusal :=
  s.issueP k w 0x21 (decide (fld w 24 22 < 6)) (fun t =>
    condHolds (fld w 24 22) (t.sreg (fld w 34 30)) ((w.extractLsb' 0 16).signExtend 64))

/-- PLC (R125). -/
def execPlc (k : Nat) (w : SlotWord) (s : State) : Host.Outcome State Fault Refusal :=
  s.issueP k w 0x22 true (fun t => (t.lcReg (fld w 34 33)).toNat == fld w 23 0)

/-- PLOG (R125). -/
def execPlog (k : Nat) (w : SlotWord) (s : State) : Host.Outcome State Fault Refusal :=
  s.issueP k w 0x23 true (fun t => plogOp (fld w 28 27) (t.predReg (fld w 34 32)) (t.predReg (fld w 31 29)))

end Sys2Proof.Machine
end

