-- ==== Sys2Proof/Machine/Tiers.lean ====
section
/-!
DEFINITION. The cellar's own events, shelves, extents, and the staging of vault pages (R204, R207, R211, R218, R222 to R224, R270,
R283).
-/
namespace Sys2Proof.Machine

/-- The reads of a page copy: a transfer found uncorrectable is counted for its site, sets MEM_STATUS and raises its event, as any read does,
and so is a corrected symbol counted (R201, R204).  The status bit is set for the partitions whose ranges hold the page. -/
def State.copyRead (s : State) (n : Nat) (bad : Bool) : State :=
  if bad then
    let who := s.functions.filter (fun f => s.inRanges f (64 * n) 64)
    match who with
    | p :: ps => ps.foldl (fun (u : State) f => u.status f 0x50030 2) (s.cellarUncorrectable p (64 * n))
    | [] => s.cellarUncorrectable 0 (64 * n)
  else s.cellarCorrected (64 * n)

/-- PAGE_REDIRECT: a page's copy ends; of its transfers, by number in the page, `fixed` had one symbol in error, and `bad` were uncorrectable
and carry the marker (R201, R204).  A transfer that carries the marker already is copied with it, as no more than a marker. -/
def execPageRedirect (site page : Nat) (fixed bad : List Nat) (s : State) : Host.Outcome State Fault Refusal :=
  if s.mem.copies.contains ⟨site, page⟩ then
    let base := s.cellarPage site page * 64
    let lost := bad.filter (fun i => decide (i < 64))
    let s1 := (fixed.filter (fun i => decide (i < 64) && !bad.contains i)).foldl (fun (u : State) i => u.copyRead (base + i) false) s
    let s2 := lost.foldl (fun (u : State) i => u.copyRead (base + i) true) s1
    .next { s2 with mem := { s2.mem with
      copies := s2.mem.copies.filter (fun c => c != ⟨site, page⟩)
      marks := lost.foldl (fun m i => mset false m (base + i) true) s2.mem.marks } }
  else .next s

/-- REFRESH_WINDOW: per-bank window `j` of the frame, or the landing window, opens (R211).  No transfer is served in it; it changes no
data. -/
def execRefreshWindow (landing : Bool) (j : Nat) (s : State) : Host.Outcome State Fault Refusal :=
  let step := if s.sites.any (fun i => (s.site i).hot) then 896 else 1792
  if landing then .next (if s.clk.locked then s.advanceTo (s.clk.frameStart + 2617344) else s)
  else if s.clk.locked && decide (j * step + 111 < frameTicks) then .next (s.advanceTo (s.clk.frameStart + step * j))
  else .next s

/-- CELLAR_HOT: a memory device requires doubled refresh (R211, R185). -/
def execCellarHot (site : Nat) (s : State) : Host.Outcome State Fault Refusal :=
  if s.sites.contains site && !(s.site site).hot then
    let s1 := (s.setSite site { s.site site with hot := true }).setField 0 (0x50810 + 32 * site) 14 14 1
    let s2 := s1.functions.foldl (fun (w : State) f => w.status f 0x50030 5) s1
    .next ((s2.eventAll 0x0306 .device site 0).eventAll 0x0208 .device 2 0)
  else .next s

/-- DOUBLED_REFRESH_END (R211). -/
def execDoubledRefreshEnd (site : Nat) (s : State) : Host.Outcome State Fault Refusal :=
  if (s.site site).hot then .next ((s.setSite site { s.site site with hot := false }).setField 0 (0x50810 + 32 * site) 14 14 0)
  else .next s

/-- SHELF_ZEROED: a FREE_DIRTY shelf is zero and becomes FREE_CLEAN (R218). -/
def execShelfZeroed (c sh : Nat) (s : State) : Host.Outcome State Fault Refusal :=
  let x := s.ctx c
  if mfind x.shelves sh = some false then
    .next ((s.cellarZero (x.base + x.params.shelfBase + 131072 * sh) 131072).setShelf c sh none)
  else .next s

/-- EXTENT_ZEROED: the new extent reads as zeros, and CTX_CREATE completes with its base (R207, R270). -/
def execExtentZeroed (c : Nat) (s : State) : Host.Outcome State Fault Refusal :=
  let x := s.ctx c
  match x.phase, x.creating with
  | .creating, some d =>
    let s1 := (s.cellarZero x.base x.params.extentBytes).setCtx c { x with phase := .empty, creating := none }
    .next (s1.complete d stOk x.base)
  | _, _ => .next s

/-! ### Staging -/

/-- The fetch of a staging entry that is in progress: begun, its due beat ahead, and pages still to come. -/
def State.stageOf (s : State) (c e : Nat) : Option StageFetch :=
  s.mem.staging.find? (fun o => o.ctx == c && o.entry == e && o.started && !o.passed && !o.abandoned && decide (o.written < o.pages))

/-- STAGING_FETCH_START: the fetch of an entry for its next step begins at the start of its lead beat, or at plan start; what an earlier
step's fetch left there no longer counts (R224, R422).  An entry that was read with the poison flag is not fetched (R57; log entry 77). -/
def execStagingFetchStart (c e : Nat) (s : State) : Host.Outcome State Fault Refusal :=
  match s.mem.staging.find? (fun o => o.ctx == c && o.entry == e && !o.started) with
  | some o =>
    if !s.quiesced && !o.poisoned && (s.active (c / 256)).contains c && decide (s.dueBeat o < s.planBeats c + o.lead) then
      let s1 := s.setStage { o with started := true }
      let rest := s1.mem.staging.filter (fun p => !(p.ctx == c && p.entry == e && p.passed))
      .next { s1 with mem := { s1.mem with staging := stageRefill rest } }
    else .next s
  | none => .next s

/-- The vault-resident shard that an entry covers (R283). -/
def State.stageShard (s : State) (o : StageFetch) : Option LoadEntry :=
  ((s.ctx o.ctx).weights.map (·.entries)).getD [] |>.find? (fun e => e.vaultDest && e.dest == o.vault)

/-- A shard's DIGEST as the manifest copy in the context's cellar holds it, none where a read of it carries the poison flag, and the counts of
the reads (R276, R279, R283). -/
def State.copyDigest (s : State) (c shard : Nat) (faults : List SymFault) : Option (List Byte) × State :=
  let at_ := ((s.ctx c).weights.map (·.manBase)).getD 0
  let (so, b1, s1) := s.hubRead c (at_ + 0x18) 8 faults
  let (dg, b2, s2) := s1.hubRead c (at_ + fieldAt so 0 8 + 80 * shard + 0x10) 64 faults
  (if b1.isEmpty && b2.isEmpty then some dg else none, s2)

/-- The last page of an entry is verified against the shard's digest in the manifest copy before it is written; an entry with a failed page
does not match.  A mismatch fetches the entry once more, and a second one marks every page (R222, R283; log entry 58). -/
def State.stageLast (s0 : State) (o : StageFetch) (page : Option (List Byte)) (faults : List SymFault) : State :=
  let dest := o.cellar + 4096 * (o.pages - 1)
  let (good, s) := match page, s0.stageShard o with
    | none, _ => (none, s0)
    | some bs, none => (some bs, s0)
    | some bs, some sh =>
      let (dg, s1) := s0.copyDigest o.ctx sh.shard faults
      (if o.intact && some (sha512 ((o.data ++ bs).take sh.bytes)) == dg then some bs else none, s1)
  match good with
  | some bs => (s.ctxWrite o.ctx dest bs).setStage { o with written := o.pages, data := [] }
  | none =>
    if o.refetched then
      ((List.range o.pages).foldl (fun (w : State) i => w.failVaultPage o.ctx (o.cellar + 4096 * i) (o.vault + 4096 * i)) s).setStage
        { o with written := o.pages, data := [], intact := false }
    else s.setStage { o with written := 0, data := [], intact := true, refetched := true }

/-- VAULT_PAGE_READ: the next page of a staging entry arrives; `reads` are the data and the metadata record of its first read and
of the second, which is made when the first does not verify (R222, R283), and `faults` the decoder findings of the manifest copy's read
(R201). -/
def execVaultPageRead (c e : Nat) (reads : List (List Byte × List Byte)) (faults : List SymFault) (s : State) : Host.Outcome State Fault Refusal :=
  match s.stageOf c e with
  | some o =>
    if s.quiesced then .next s
    else
      let v := o.vault + 4096 * o.written
      let dest := o.cellar + 4096 * o.written
      let key := (mget {} s.mem.keys ((s.ctx c).keySlot)).gcmKey
      let page := match s.vaultPlace (c / 256) v with
        | some p => (reads.take 2).foldl (fun (a : Option (List Byte)) r =>
            match a with | some x => some x | none => openVaultPage key p v r.1 r.2) none
        | none => none
      match page with
      | some bs =>
        if o.written + 1 = o.pages then .next (s.stageLast o (some bs) faults)
        else .next ((s.ctxWrite c dest bs).setStage { o with written := o.written + 1, data := o.data ++ bs })
      | none =>
        if o.written + 1 = o.pages then .next ((s.failVaultPage c dest v).stageLast o none faults)
        else .next ((s.failVaultPage c dest v).setStage { o with written := o.written + 1, intact := false })
  | none => .next s

end Sys2Proof.Machine
end

