-- ==== Sys2Proof/Machine/Trust.lean ====
section
/-!
DEFINITION. Attestation (R386, R390 to R394), the SPDM responders (R389), and TDISP and CXL IDE key management inside their sessions
(R352, R353, R389).
-/
namespace Sys2Proof.Machine

/-! ### The curve P-384 of the published standard -/

def p384 : Nat := 2 ^ 384 - 2 ^ 128 - 2 ^ 96 + 2 ^ 32 - 1
def p384b : Nat := 0xB3312FA7E23EE7E4988E056BE3F82D19181D9C6EFE8141120314088F5013875AC656398D8A2ED19D2A85C8EDD3EC2AEF

/-- Whether 96 bytes, x then y, are a point on the curve, each coordinate read by `num`. -/
def onCurve (num : List Byte → Nat) (k : List Byte) : Bool :=
  let x := num (k.take 48)
  let y := num ((k.drop 48).take 48)
  k.length == 96 && decide (x < p384) && decide (y < p384) && (y * y) % p384 == (x * x * x + (p384 - 3) * x + p384b) % p384

/-! ### Measurements (R390; log entry 46) -/

/-- The enabled ports in port order. -/
def State.enabledPorts (s : State) : List Nat := (List.range 24).filter (fun p => s.field 0 (pstat p) 17 17 == 1)

/-- The plan digest of a context, where it has a plan. -/
def State.planMeasure (s : State) (c : Nat) : List Byte := ((s.ctx c).plan.map (·.digest)).getD []

/-- A context's current weight generation and manifest digest, then each current adapter's ID, generation and manifest digest. -/
def State.weightMeasure (s : State) (c : Nat) : List Byte :=
  let x := s.ctx c
  let w := match x.weights with | some w => leBytes 8 w.gen ++ hostRead w.digest 64 | none => List.replicate 72 0
  w ++ (x.adapters.filter (fun p => p.2.phase == .current)).flatMap (fun p => leBytes 2 p.2.id ++ leBytes 8 p.2.gen ++ hostRead p.2.digest 64)

/-- Measurements 1 to 7. -/
def State.deviceMeasures (s : State) : List (Nat × List Byte) :=
  let f := s.boot.fuses
  let digest := fun (o : Nat) => (List.range 8).flatMap (fun i => leBytes 8 (s.reg 0 (o + 8 * i)).toNat)
  let ports := s.enabledPorts.flatMap (fun p => leBytes 1 (s.pstate p) ++ leBytes 2 (s.observed p) ++ hostRead (s.lport p).nbHash 64)
  [(1, romDigest),
   (2, digest 0x1080 ++ leBytes 1 (s.field 0 0x1008 56 50) ++ leBytes 3 (s.field 0 0x38 23 0)),
   (3, digest 0x1040 ++ leBytes 8 (s.reg 0 0x1010).toNat),
   (4, leBytes 8 f.serial ++ leBytes 1 f.grade ++ leBytes 1 f.stepping ++ leBytes 8 f.shape.toNat ++ leBytes 1 (ones f.rollback.toNat 64)),
   (5, (List.range 64).map (fun r => BitVec.ofNat 8 (s.region r).repairSlots) ++ leBytes 2 f.spoilt ++
      leBytes 4 (f.slots.filter (fun x => x.valid && entryKind x.entry == 2)).length),
   (6, leBytes 1 (s.field 0 0x40 1 1)),
   (7, sha512 (leBytes 4 (s.field 0 0x1008 39 16) ++ leBytes 2 (s.field 0 0x1008 15 0) ++ ports))]

/-- Measurements 8 and 9 of a partition: digests over its contexts in order. -/
def State.tenantMeasures (s : State) (fn : Nat) : List (Nat × List Byte) :=
  let cs := s.ctxsOf fn
  [(8, sha512 (cs.flatMap s.planMeasure)), (9, sha512 (cs.flatMap s.weightMeasure))]

/-! ### ATTEST (R392 to R394) -/

/-- The checks of an ATTEST: the request is read from the host, its key's coordinates little-endian, as memory holds multi-byte values (R12). -/
def State.attestFaults (s : State) (d : DescRef) (key : List Byte) : List Nat :=
  reasons [
    (decide (2 ≤ d.opd 1 1) || !d.reservedOk [(0, 2), (8, 8), (16, 8), (24, 4)] || d.opd 8 8 % 64 != 0 || d.opd 16 8 % 64 != 0 ||
      decide (d.opd 24 4 < 32768) || (d.opd 1 1 % 2 == 1 && !onCurve leNat key), rsGeometry),
    (!s.ctxUsable d.ctxKey, rsState)]

/-- The report over a request's nonce, with the device's ephemeral public key if it has one (R393). -/
def State.attestReport (s : State) (d : DescRef) (nonce ephemeral : List Byte) : List Byte :=
  let c := d.ctxKey
  let ms := s.deviceMeasures ++ [(8, s.planMeasure c), (9, s.weightMeasure c)]
  let recs := ms.flatMap (fun m => leBytes 1 m.1 ++ [0#8] ++ leBytes 2 m.2.length ++ m.2)
  let flags := d.opd 1 1 % 2 + 2 * s.field 0 0x40 1 1
  let len := 0xC0 + recs.length + 512
  let body := [0x4C#8, 0x4D#8, 0x41#8, 0x52#8] ++ leBytes 2 1 ++ leBytes 2 flags ++ leBytes 4 len ++ leBytes 4 ms.length ++ nonce ++
    leBytes 8 s.boot.fuses.serial ++ leBytes 2 s.devId ++ leBytes 1 d.fn ++ leBytes 1 (d.opd 0 1) ++ List.replicate 4 0 ++
    hostRead ephemeral 96 ++ leBytes 8 (s.stepNo c) ++ List.replicate 24 0 ++ recs
  body ++ beBytes 512 (Config.secret 2 body)

/-- Write the report and finish with its length. -/
def State.giveReport (s : State) (d : DescRef) (report : List Byte) : State :=
  (s.toHost d.fn (.hostWrite (d.opd 16 8) report)).finish d stOk report.length

/-- ATTEST without KEY; `request` is what the host's request area holds. -/
def execAttest (fn q : Nat) (request : List Byte) (s : State) : Host.Outcome State Fault Refusal :=
  .next (s.execDesc fn q (fun bs => opIs 0x60 bs && opdByte bs 1 % 2 == 0) (fun d s =>
    let r := hostRead request 160
    s.check d (s.attestFaults d []) (fun s => s.giveReport d (s.attestReport d (r.take 32) []))))

/-- The hatch key that an ATTEST with KEY derives from the shared secret (R394). -/
def State.newHatchKey (s : State) (d : DescRef) (nonce shared : List Byte) : List Byte :=
  hkdf sha512 nonce shared ([0x4C#8, 0x4D#8, 0x48#8, 0x4B#8] ++ leBytes 8 s.boot.fuses.serial ++ leBytes 1 d.fn ++ leBytes 1 (d.opd 0 1)) 32

/-- ATTEST with KEY: an ephemeral key pair is drawn, and the hatch key goes into the context's key slot (R352, R394). -/
def execAttestKey (fn q : Nat) (request : List Byte) (s : State) : Host.Outcome State Fault Refusal :=
  .next (s.execDesc fn q (fun bs => opIs 0x60 bs && opdByte bs 1 % 2 == 1) (fun d s =>
    let r := hostRead request 160
    let pub := (r.drop 32).take 96
    s.check d (s.attestFaults d pub) (fun s =>
      let (e, s1) := s.drawEntropy
      let own := beBytes 96 (Config.secret 1 (leBytes 48 e))
      let shared := beBytes 48 (Config.secret 3 (leBytes 48 e ++ pub))
      let slot := (s1.ctx d.ctxKey).keySlot
      let k : KeySlot := mget {} s1.mem.keys slot
      let s2 := { s1 with mem := { s1.mem with keys := mset {} s1.mem.keys slot { k with hatchKey := some (s1.newHatchKey d (r.take 32) shared) } } }
      s2.giveReport d (s2.attestReport d (r.take 32) own))))

/-! ### SPDM (R389, R391) -/

/-- A responder: a function's DOE mailbox, or the management port. -/
def spdmKey (who : Option Nat) : Nat := who.getD 8

def State.spdm (s : State) (who : Option Nat) : Spdm := mget {} s.boot.spdm (spdmKey who)

def State.setSpdm (s : State) (who : Option Nat) (x : Spdm) : State :=
  { s with boot := { s.boot with spdm := mset {} s.boot.spdm (spdmKey who) x } }

/-- Answer on the responder's port. -/
def State.spdmAnswer (s : State) (who : Option Nat) (r : Reply) : State := s.emit (.response who r)

/-- Whether a responder runs: runtime firmware serves the mailboxes of the functions presented, and the management port. -/
def State.spdmRuns (s : State) (who : Option Nat) : Bool :=
  s.firmwareRuns && (match who with | some fn => s.functions.contains fn | none => true)

/-- Serve a request that needs negotiation up to a step; one out of order is an SPDM error (log entry 47). -/
def State.spdmServe (s : State) (who : Option Nat) (step : Nat) (run : State → State) : State :=
  if !s.spdmRuns who then s
  else if (s.spdm who).step < step then s.spdmAnswer who .error
  else run s

/-- GET_VERSION starts a connection afresh. -/
def execGetVersion (who : Option Nat) (s : State) : Host.Outcome State Fault Refusal :=
  .next (s.spdmServe who 0 (fun s => (s.setSpdm who { step := 1 }).spdmAnswer who (.version 1 3)))

/-- GET_CAPABILITIES: no pre-shared keys and no mutual authentication. -/
def execGetCapabilities (who : Option Nat) (s : State) : Host.Outcome State Fault Refusal :=
  .next (s.spdmServe who 1 (fun s =>
    (s.setSpdm who { s.spdm who with step := max 2 (s.spdm who).step }).spdmAnswer who (.capabilities true true true true true false false)))

/-- NEGOTIATE_ALGORITHMS; `agree` says that the requester's lists hold the device's algorithms. -/
def execNegotiateAlgorithms (who : Option Nat) (agree : Bool) (s : State) : Host.Outcome State Fault Refusal :=
  .next (s.spdmServe who 2 (fun s =>
    if agree then (s.setSpdm who { s.spdm who with step := 3 }).spdmAnswer who (.algorithms .rsassa4096Sha512 .sha512 .secp384r1 .aes256gcm)
    else s.spdmAnswer who .error))

/-- GET_DIGESTS: slot 0 only. -/
def execGetDigests (who : Option Nat) (s : State) : Host.Outcome State Fault Refusal :=
  .next (s.spdmServe who 3 (fun s => s.spdmAnswer who (.digests (sha512 s.boot.chain))))

/-- GET_CERTIFICATE of a slot: a portion of the chain and how many bytes remain. -/
def execGetCertificate (who : Option Nat) (slot offset length : Nat) (s : State) : Host.Outcome State Fault Refusal :=
  .next (s.spdmServe who 3 (fun s =>
    if slot ≠ 0 then s.spdmAnswer who .error
    else
      let portion := (s.boot.chain.drop offset).take length
      s.spdmAnswer who (.certificate portion (s.boot.chain.length - offset - portion.length))))

/-- A signature of the identity key over some bytes (R386). -/
def identitySign (m : List Byte) : Nat := Config.secret 2 m

/-- CHALLENGE: the chain's digest, signed with the requester's nonce by the identity key (R386). -/
def execChallenge (who : Option Nat) (slot : Nat) (nonce : List Byte) (s : State) : Host.Outcome State Fault Refusal :=
  .next (s.spdmServe who 3 (fun s =>
    if slot ≠ 0 then s.spdmAnswer who .error
    else
      let h := sha512 s.boot.chain
      s.spdmAnswer who (.challengeAuth h (identitySign (h ++ nonce)))))

/-- The measurements that a responder reports: the management port never reports tenant measurements (R390). -/
def State.measuresFor (s : State) : Option Nat → List (Nat × List Byte)
  | some fn => s.deviceMeasures ++ s.tenantMeasures fn
  | none => s.deviceMeasures

/-- GET_MEASUREMENTS: one index, or all with 255; a signature where a nonce is given. -/
def execGetMeasurements (who : Option Nat) (index : Nat) (nonce : Option (List Byte)) (s : State) : Host.Outcome State Fault Refusal :=
  .next (s.spdmServe who 3 (fun s =>
    let ms := (s.measuresFor who).filter (fun m => index == 255 || m.1 == index)
    if ms.isEmpty then s.spdmAnswer who .error
    else s.spdmAnswer who (.measurements ms (nonce.map (fun n => identitySign (ms.flatMap (·.2) ++ n))))))

/-- KEY_EXCHANGE: an ephemeral key on P-384 opens a session (R389); its coordinates are big-endian, as the published protocol has them
(PRESUMED, log entry 43). -/
def execKeyExchange (who : Option Nat) (key : List Byte) (s : State) : Host.Outcome State Fault Refusal :=
  .next (s.spdmServe who 3 (fun s =>
    if !onCurve beNat key then s.spdmAnswer who .error
    else
      let (e, s1) := s.drawEntropy
      let own := beBytes 96 (Config.secret 1 (leBytes 48 e))
      (s1.setSpdm who { s1.spdm who with session := some ⟨e, false⟩ }).spdmAnswer who (.keyExchange own (identitySign (own ++ key)))))

/-- FINISH; `good` says that the requester's verify data is right. -/
def execFinish (who : Option Nat) (good : Bool) (s : State) : Host.Outcome State Fault Refusal :=
  .next (s.spdmServe who 3 (fun s =>
    match (s.spdm who).session with
    | some x =>
      if good && !x.finished then (s.setSpdm who { s.spdm who with session := some { x with finished := true } }).spdmAnswer who .finished
      else s.spdmAnswer who .error
    | none => s.spdmAnswer who .error))

/-- Whether a responder has a secure session. -/
def State.secure (s : State) (who : Option Nat) : Bool := match (s.spdm who).session with | some x => x.finished | none => false

/-- END_SESSION. -/
def execEndSession (who : Option Nat) (s : State) : Host.Outcome State Fault Refusal :=
  .next (s.spdmServe who 3 (fun s =>
    if s.secure who then (s.setSpdm who { s.spdm who with session := none }).spdmAnswer who .ended else s.spdmAnswer who .error))

/-! ### TDISP and IDE (R352, R353, R361, R389) -/

/-- The TDISP state that a request leads to from a state: 0 CONFIG_UNLOCKED, 1 CONFIG_LOCKED, 2 RUN, 3 ERROR (log entry 48). -/
def tdispNext (st : Nat) : TdispRequest → Option Nat
  | .lock => if st = 0 then some 1 else none
  | .start => if st = 1 then some 2 else none
  | .stop => some 0

/-- TDISP_MESSAGE on a function's DOE mailbox, in a secure session. -/
def execTdispMessage (fn : Nat) (req : TdispRequest) (s : State) : Host.Outcome State Fault Refusal :=
  .next (s.spdmServe (some fn) 3 (fun s =>
    match (if s.secure (some fn) then tdispNext (s.field fn 0x10018 1 0) req else none) with
    | some st => (s.setTdisp fn st).spdmAnswer (some fn) (.tdisp st)
    | none => s.spdmAnswer (some fn) .error))

/-- IDE_KEY_MANAGEMENT on a function's DOE mailbox, in a secure session: keys are programmed and IDE is active for the function on a port
whose link is up. -/
def execIdeKeyManagement (fn port : Nat) (s : State) : Host.Outcome State Fault Refusal :=
  .next (s.spdmServe (some fn) 3 (fun s =>
    if s.secure (some fn) ∧ port < 2 ∧ s.field fn (portReg port) 0 0 = 1 then
      (s.setField fn (portReg port) 9 9 1).spdmAnswer (some fn) .ide
    else s.spdmAnswer (some fn) .error))

end Sys2Proof.Machine
end

