-- ==== Sys2Proof/Machine/VectorInt.lean ====
section
/-!
DEFINITION. The integer and lane-movement operations of the V slot (R62, R116).
-/
namespace Sys2Proof.Machine

/-- All 64 lanes. -/
def allLanes : BitVec 64 := 0xFFFFFFFFFFFFFFFF#64

/-- A V-slot operation that writes VD, computed from the tile at issue. -/
def State.issueV (s : State) (k : Nat) (w : SlotWord) (op lat : Nat) (legal : Bool) (f : Tile → BitVec 2048) :
    Host.Outcome State Fault Refusal :=
  s.issueReg k .v w op legal (fun t => [(lat, 0, .vreg (vdF w) allLanes (f t))])

/-- Lane by lane on VA and VB. -/
def Tile.zip2 (t : Tile) (w : SlotWord) (f : BitVec 32 → BitVec 32 → BitVec 32) : BitVec 2048 :=
  let a := t.vreg (vaF w)
  let b := t.vreg (vbF w)
  mapLanes (fun i => f (laneOf a i) (laneOf b i))

/-- Lane by lane on VA. -/
def Tile.map1 (t : Tile) (w : SlotWord) (f : BitVec 32 → BitVec 32) : BitVec 2048 :=
  let a := t.vreg (vaF w)
  mapLanes (fun i => f (laneOf a i))

/-- The lane value of a compare. -/
def maskLane (b : Bool) : BitVec 32 := if b then 0xFFFFFFFF#32 else 0

/-- The shift amount of VSHL and VSHR: VB's lane, or MOD[4:0] where MOD[17] is 1. -/
def shiftAmt (w : SlotWord) (b : BitVec 32) : Nat := if flag w 17 then fld w 4 0 else b.toNat % 32

/-- The low 32 bits of a scalar register. -/
def Tile.slow (t : Tile) (i : Nat) : BitVec 32 := (t.sreg i).setWidth 32

/-- VaddI (R116). -/
def execVaddI (k : Nat) (w : SlotWord) (s : State) : Host.Outcome State Fault Refusal :=
  s.issueV k w 0x01 1 true (fun t => t.zip2 w (fun a b => a + b))

/-- VsubI (R116). -/
def execVsubI (k : Nat) (w : SlotWord) (s : State) : Host.Outcome State Fault Refusal :=
  s.issueV k w 0x02 1 true (fun t => t.zip2 w (fun a b => a - b))

/-- Vand (R116). -/
def execVand (k : Nat) (w : SlotWord) (s : State) : Host.Outcome State Fault Refusal :=
  s.issueV k w 0x03 1 true (fun t => t.zip2 w (fun a b => a &&& b))

/-- Vor (R116). -/
def execVor (k : Nat) (w : SlotWord) (s : State) : Host.Outcome State Fault Refusal :=
  s.issueV k w 0x04 1 true (fun t => t.zip2 w (fun a b => a ||| b))

/-- Vxor (R116). -/
def execVxor (k : Nat) (w : SlotWord) (s : State) : Host.Outcome State Fault Refusal :=
  s.issueV k w 0x05 1 true (fun t => t.zip2 w (fun a b => a ^^^ b))

/-- Vshl (R116). -/
def execVshl (k : Nat) (w : SlotWord) (s : State) : Host.Outcome State Fault Refusal :=
  s.issueV k w 0x06 1 true (fun t => t.zip2 w (fun a b => a <<< shiftAmt w b))

/-- Vshr (R116). -/
def execVshr (k : Nat) (w : SlotWord) (s : State) : Host.Outcome State Fault Refusal :=
  s.issueV k w 0x07 1 true (fun t => t.zip2 w (fun a b => if flag w 16 then a.sshiftRight (shiftAmt w b) else a >>> shiftAmt w b))

/-- VcmpI (R116). -/
def execVcmpI (k : Nat) (w : SlotWord) (s : State) : Host.Outcome State Fault Refusal :=
  s.issueV k w 0x08 1 (decide (fld w 2 0 < 6)) (fun t => t.zip2 w (fun a b => maskLane (condHolds (fld w 2 0) a b)))

/-- VSEL: VA where the VC lane is not 0, else VB (R116). -/
def execVsel (k : Nat) (w : SlotWord) (s : State) : Host.Outcome State Fault Refusal :=
  s.issueV k w 0x09 1 true (fun t =>
    let c := t.vreg (vcF w)
    mapLanes (fun i => if laneOf c i = 0 then laneOf (t.vreg (vbF w)) i else laneOf (t.vreg (vaF w)) i))

/-- VminI (R116). -/
def execVminI (k : Nat) (w : SlotWord) (s : State) : Host.Outcome State Fault Refusal :=
  s.issueV k w 0x0A 1 true (fun t => t.zip2 w (fun a b => if a.slt b then a else b))

/-- VmaxI (R116). -/
def execVmaxI (k : Nat) (w : SlotWord) (s : State) : Host.Outcome State Fault Refusal :=
  s.issueV k w 0x0B 1 true (fun t => t.zip2 w (fun a b => if a.slt b then b else a))

/-- VABS.I, signed.  The most negative value has no absolute value in 32 bits and the manual states no result for it: that lane
is a free value, the same on every device since every vector operation is a fixed function of its inputs (R63; log entry 14). -/
def execVabsI (k : Nat) (w : SlotWord) (s : State) : Host.Outcome State Fault Refusal :=
  s.issueV k w 0x0C 1 true (fun t => t.map1 w (fun x =>
    if x = 0x80000000#32 then BitVec.ofNat 32 (Config.unstated 2 0) else if x.msb then -x else x))

/-- VmulI (R116). -/
def execVmulI (k : Nat) (w : SlotWord) (s : State) : Host.Outcome State Fault Refusal :=
  s.issueV k w 0x0D 3 true (fun t => t.zip2 w (fun a b => a * b))

/-- VBCS (R116). -/
def execVbcs (k : Nat) (w : SlotWord) (s : State) : Host.Outcome State Fault Refusal :=
  s.issueV k w 0x10 1 true (fun t => mapLanes (fun _ => t.slow (vaF w)))

/-- VBCL (R116). -/
def execVbcl (k : Nat) (w : SlotWord) (s : State) : Host.Outcome State Fault Refusal :=
  s.issueV k w 0x11 1 true (fun t => mapLanes (fun _ => laneOf (t.vreg (vaF w)) (fld w 5 0)))

/-- VMVS (R116). -/
def execVmvs (k : Nat) (w : SlotWord) (s : State) : Host.Outcome State Fault Refusal :=
  s.issueReg k .v w 0x12 true (fun t => [(1, 0, .sreg (vdF w) ((laneOf (t.vreg (vaF w)) (fld w 5 0)).setWidth 64))])

/-- VMSV: the other lanes keep their values (R116). -/
def execVmsv (k : Nat) (w : SlotWord) (s : State) : Host.Outcome State Fault Refusal :=
  s.issueReg k .v w 0x13 true (fun t =>
    [(1, 0, .vreg (vdF w) (BitVec.ofNat 64 (2 ^ fld w 5 0)) (mapLanes (fun _ => t.slow (vaF w))))])

/-- VPERM (R116). -/
def execVperm (k : Nat) (w : SlotWord) (s : State) : Host.Outcome State Fault Refusal :=
  s.issueV k w 0x14 2 true (fun t =>
    let b := t.vreg (vbF w)
    mapLanes (fun i => laneOf (t.vreg (vaF w)) ((laneOf b i).toNat % 64)))

end Sys2Proof.Machine
end

