-- ==== Sys2Proof/Machine/VectorFloat.lean ====
section
/-!
DEFINITION. The FP32, conversion, transcendental, reduction, softmax and random operations of the V slot
(R62 to R66, R101, R102, R116, R117).
-/
namespace Sys2Proof.Machine

/-- Lane by lane on VA, VB and VC. -/
def Tile.zip3 (t : Tile) (w : SlotWord) (f : F32 → F32 → F32 → F32) : BitVec 2048 :=
  let a := t.vreg (vaF w)
  let b := t.vreg (vbF w)
  let c := t.vreg (vcF w)
  mapLanes (fun i => f (laneOf a i) (laneOf b i) (laneOf c i))

/-- The lanes of the group that holds lane `i`, in groups of 2^g lanes. -/
def groupLanes (g : Nat) (v : BitVec 2048) (i : Nat) : List F32 :=
  (List.range (2 ^ g)).map (fun j => laneOf v (i / 2 ^ g * 2 ^ g + j))

/-- One value for each group, given to every lane of it. -/
def perGroup (g : Nat) (f : Nat → F32) : BitVec 2048 :=
  let vals := (List.range (64 / 2 ^ g)).map (fun n => f (n * 2 ^ g))
  mapLanes (fun i => vals.getD (i / 2 ^ g) 0)

/-- The reduction of a non-empty list. -/
def foldGroup (f : F32 → F32 → F32) : List F32 → F32
  | [] => 0
  | x :: xs => xs.foldl f x

/-! ### Conversions (R101, R117) -/

/-- The codes of a register read in a format: packed for the narrow formats, a lane for the 32-bit ones. -/
def readCodes (f : Fmt) (v : BitVec 2048) : List Nat := (List.range 64).map (fun i => f.elem v.toNat i)

/-- The formats VCVT accepts (R117). -/
def cvtFmt (n : Nat) : Option Fmt :=
  match Fmt.ofCode n with
  | some f => if f.mx then none else some f
  | none => none

/-- The pair of formats of a VCVT, where it is legal (R112, R117). -/
def cvtPair (w : SlotWord) : Option (Fmt × Fmt) :=
  match cvtFmt (fld w 3 0), cvtFmt (fld w 7 4) with
  | some a, some b => if a = b ∧ (a = .fp32 ∨ a = .int32) then none else some (a, b)
  | _, _ => none

/-- The result of a VCVT. -/
def cvtResult (w : SlotWord) (v : BitVec 2048) : BitVec 2048 :=
  match cvtPair w with
  | some (a, b) =>
    BitVec.ofNat 2048 (b.pack ((readCodes a v).map (fun c => b.encode (RMode.ofCode (fld w 10 8)) (flag w 11) (a.decode c))))
  | none => 0

/-- The result of a VMXQ: two blocks' elements, the two scale bytes, zeros (R102, R117). -/
def mxqResult (f : Fmt) (v : BitVec 2048) : BitVec 2048 :=
  let ls := lanesOf v
  let (e0, s0) := mxQuantise f (ls.take 32)
  let (e1, s1) := mxQuantise f (ls.drop 32)
  BitVec.ofNat 2048 (f.pack (e0 ++ e1) + (s0 + 256 * s1) * 2 ^ (64 * f.bits))

/-- The element format of a VMXQ. -/
def mxqFmt (w : SlotWord) : Option Fmt :=
  match fld w 5 2 with
  | 3 => some .e2m3 | 4 => some .e3m2 | 5 => some .e2m1 | _ => none

/-! ### Softmax (R65) -/

/-- SMX_MAX: the new maxima and the scales. -/
def smxMax (g : Nat) (vs vm : BitVec 2048) : BitVec 2048 × BitVec 2048 :=
  let mxs := perGroup g (fun i => fmax (laneOf vm i) (foldGroup fmax (groupLanes g vs i)))
  (mxs, mapLanes (fun i =>
    let mx := laneOf mxs i
    if mx = ninf32 then 0x3F800000#32 else fexp (fsub (laneOf vm i) mx)))

/-- SMX_SUM: the probabilities and the new sums. -/
def smxSum (g : Nat) (vs vm vl vscale : BitVec 2048) : BitVec 2048 × BitVec 2048 :=
  let vp := mapLanes (fun i =>
    if laneOf vm i = ninf32 then 0 else fexp (fsub (laneOf vs i) (laneOf vm i)))
  let t := perGroup g (fun i => pairSum g (groupLanes g vp i))
  (vp, mapLanes (fun i => fadd (fmul (laneOf vl i) (laneOf vscale i)) (laneOf t i)))

/-! ### The commands -/

/-- VnegF (R63, R64, R116). -/
def execVnegF (k : Nat) (w : SlotWord) (s : State) : Host.Outcome State Fault Refusal :=
  s.issueV k w 0x18 1 true (fun t => t.map1 w fneg)

/-- VabsF (R63, R64, R116). -/
def execVabsF (k : Nat) (w : SlotWord) (s : State) : Host.Outcome State Fault Refusal :=
  s.issueV k w 0x19 1 true (fun t => t.map1 w fabs)

/-- VminF (R116). -/
def execVminF (k : Nat) (w : SlotWord) (s : State) : Host.Outcome State Fault Refusal :=
  s.issueV k w 0x1A 2 true (fun t => t.zip2 w (fun a b => fmin a b))

/-- VmaxF (R116). -/
def execVmaxF (k : Nat) (w : SlotWord) (s : State) : Host.Outcome State Fault Refusal :=
  s.issueV k w 0x1B 2 true (fun t => t.zip2 w (fun a b => fmax a b))

/-- VcmpF (R116). -/
def execVcmpF (k : Nat) (w : SlotWord) (s : State) : Host.Outcome State Fault Refusal :=
  s.issueV k w 0x1C 2 (decide (fld w 2 0 < 4)) (fun t => t.zip2 w (fun a b => maskLane (fcondHolds (fld w 2 0) a b)))

/-- VaddF (R116). -/
def execVaddF (k : Nat) (w : SlotWord) (s : State) : Host.Outcome State Fault Refusal :=
  s.issueV k w 0x1D 4 true (fun t => t.zip2 w (fun a b => fadd a b))

/-- VsubF (R116). -/
def execVsubF (k : Nat) (w : SlotWord) (s : State) : Host.Outcome State Fault Refusal :=
  s.issueV k w 0x1E 4 true (fun t => t.zip2 w (fun a b => fsub a b))

/-- VmulF (R116). -/
def execVmulF (k : Nat) (w : SlotWord) (s : State) : Host.Outcome State Fault Refusal :=
  s.issueV k w 0x1F 4 true (fun t => t.zip2 w (fun a b => fmul a b))

/-- VFMA.F (R116). -/
def execVfmaF (k : Nat) (w : SlotWord) (s : State) : Host.Outcome State Fault Refusal :=
  s.issueV k w 0x20 5 true (fun t => t.zip3 w ffma)

/-- VCVT (R101, R117). -/
def execVcvt (k : Nat) (w : SlotWord) (s : State) : Host.Outcome State Fault Refusal :=
  s.issueV k w 0x24 3 (cvtPair w).isSome (fun t => cvtResult w (t.vreg (vaF w)))

/-- VMXQ (R102, R117). -/
def execVmxq (k : Nat) (w : SlotWord) (s : State) : Host.Outcome State Fault Refusal :=
  s.issueV k w 0x25 6 (mxqFmt w).isSome (fun t => mxqResult ((mxqFmt w).getD .e2m1) (t.vreg (vaF w)))

/-- Vexp2 (R63, R64, R116). -/
def execVexp2 (k : Nat) (w : SlotWord) (s : State) : Host.Outcome State Fault Refusal :=
  s.issueV k w 0x28 6 true (fun t => t.map1 w fexp2)

/-- Vrcp (R63, R64, R116). -/
def execVrcp (k : Nat) (w : SlotWord) (s : State) : Host.Outcome State Fault Refusal :=
  s.issueV k w 0x29 6 true (fun t => t.map1 w frcp)

/-- Vrsq (R63, R64, R116). -/
def execVrsq (k : Nat) (w : SlotWord) (s : State) : Host.Outcome State Fault Refusal :=
  s.issueV k w 0x2A 7 true (fun t => t.map1 w frsq)

/-- Vexp (R63, R64, R116). -/
def execVexp (k : Nat) (w : SlotWord) (s : State) : Host.Outcome State Fault Refusal :=
  s.issueV k w 0x2B 8 true (fun t => t.map1 w fexp)

/-- VRMAX: over each group of lanes (R63, R116). -/
def execVrmax (k : Nat) (w : SlotWord) (s : State) : Host.Outcome State Fault Refusal :=
  s.issueV k w 0x2C 8 true (fun t =>
    perGroup (groupLog w) (fun i => foldGroup fmax (groupLanes (groupLog w) (t.vreg (vaF w)) i)))

/-- VRMIN: over each group of lanes (R63, R116). -/
def execVrmin (k : Nat) (w : SlotWord) (s : State) : Host.Outcome State Fault Refusal :=
  s.issueV k w 0x2D 8 true (fun t =>
    perGroup (groupLog w) (fun i => foldGroup fmin (groupLanes (groupLog w) (t.vreg (vaF w)) i)))

/-- VRSUM: in fixed pairwise order (R116). -/
def execVrsum (k : Nat) (w : SlotWord) (s : State) : Host.Outcome State Fault Refusal :=
  s.issueV k w 0x2E 10 true (fun t =>
    perGroup (groupLog w) (fun i => pairSum (groupLog w) (groupLanes (groupLog w) (t.vreg (vaF w)) i)))

/-- SMX_MAX: Vm = VD, Vs = VB, Vscale = VC (R65, R116). -/
def execSmxMax (k : Nat) (w : SlotWord) (s : State) : Host.Outcome State Fault Refusal :=
  s.issueReg k .v w 0x30 (vdF w != vcF w) (fun t =>
    let r := smxMax (groupLog w) (t.vreg (vbF w)) (t.vreg (vdF w))
    [(10, 0, .vreg (vdF w) allLanes r.1), (10, 0, .vreg (vcF w) allLanes r.2)])

/-- SMX_SUM: Vp = VD, Vs = VA, Vm = VB, Vscale = VC, Vl = MOD[6:2] (R65, R116). -/
def execSmxSum (k : Nat) (w : SlotWord) (s : State) : Host.Outcome State Fault Refusal :=
  s.issueReg k .v w 0x31 (vdF w != fld w 6 2) (fun t =>
    let r := smxSum (groupLog w) (t.vreg (vaF w)) (t.vreg (vbF w)) (t.vreg (fld w 6 2)) (t.vreg (vcF w))
    [(14, 0, .vreg (vdF w) allLanes r.1), (14, 0, .vreg (fld w 6 2) allLanes r.2)])

/-- VRNG: 16 Philox blocks (R66, R116). -/
def execVrng (k : Nat) (w : SlotWord) (s : State) : Host.Outcome State Fault Refusal :=
  s.issueV k w 0x34 12 true (fun t =>
    let key := t.sreg (vaF w)
    ofLanes ((List.range 16).flatMap (fun i => philox key (t.sreg (vbF w) + BitVec.ofNat 64 i) (t.sreg (vcF w)))))

end Sys2Proof.Machine
end

