-- ==== Sys2Proof/Machine/Dispatch.lean ====
section
/-!
DEFINITION. The dispatch: one arm per command, each a direct call of its meaning.
-/
namespace Sys2Proof.Machine

/-- The effect of a command on everything but the queue. -/
def exec (i : Instr) (s : State) : Host.Outcome State Fault Refusal :=
  match i with
  | .tileNop t slot parity => Sys2Proof.Machine.execTileNop t slot parity s
  | .icacheLineFillDone t line faults => Sys2Proof.Machine.execIcacheLineFillDone t line faults s
  | .opResultWriteback t => Sys2Proof.Machine.execOpResultWriteback t s
  | .mmul t w flips => Sys2Proof.Machine.execMmul t w flips s
  | .mcfg t w => Sys2Proof.Machine.execMcfg t w s
  | .arrayStreamStart t => Sys2Proof.Machine.execArrayStreamStart t s
  | .arrayVectorCompare t faults chk ecc => Sys2Proof.Machine.execArrayVectorCompare t faults chk ecc s
  | .arrayResultWrite t => Sys2Proof.Machine.execArrayResultWrite t s
  | .vaddI t w => Sys2Proof.Machine.execVaddI t w s
  | .vsubI t w => Sys2Proof.Machine.execVsubI t w s
  | .vand t w => Sys2Proof.Machine.execVand t w s
  | .vor t w => Sys2Proof.Machine.execVor t w s
  | .vxor t w => Sys2Proof.Machine.execVxor t w s
  | .vshl t w => Sys2Proof.Machine.execVshl t w s
  | .vshr t w => Sys2Proof.Machine.execVshr t w s
  | .vcmpI t w => Sys2Proof.Machine.execVcmpI t w s
  | .vsel t w => Sys2Proof.Machine.execVsel t w s
  | .vminI t w => Sys2Proof.Machine.execVminI t w s
  | .vmaxI t w => Sys2Proof.Machine.execVmaxI t w s
  | .vabsI t w => Sys2Proof.Machine.execVabsI t w s
  | .vmulI t w => Sys2Proof.Machine.execVmulI t w s
  | .vbcs t w => Sys2Proof.Machine.execVbcs t w s
  | .vbcl t w => Sys2Proof.Machine.execVbcl t w s
  | .vmvs t w => Sys2Proof.Machine.execVmvs t w s
  | .vmsv t w => Sys2Proof.Machine.execVmsv t w s
  | .vperm t w => Sys2Proof.Machine.execVperm t w s
  | .vnegF t w => Sys2Proof.Machine.execVnegF t w s
  | .vabsF t w => Sys2Proof.Machine.execVabsF t w s
  | .vminF t w => Sys2Proof.Machine.execVminF t w s
  | .vmaxF t w => Sys2Proof.Machine.execVmaxF t w s
  | .vcmpF t w => Sys2Proof.Machine.execVcmpF t w s
  | .vaddF t w => Sys2Proof.Machine.execVaddF t w s
  | .vsubF t w => Sys2Proof.Machine.execVsubF t w s
  | .vmulF t w => Sys2Proof.Machine.execVmulF t w s
  | .vfmaF t w => Sys2Proof.Machine.execVfmaF t w s
  | .vcvt t w => Sys2Proof.Machine.execVcvt t w s
  | .vmxq t w => Sys2Proof.Machine.execVmxq t w s
  | .vexp2 t w => Sys2Proof.Machine.execVexp2 t w s
  | .vrcp t w => Sys2Proof.Machine.execVrcp t w s
  | .vrsq t w => Sys2Proof.Machine.execVrsq t w s
  | .vexp t w => Sys2Proof.Machine.execVexp t w s
  | .vrmax t w => Sys2Proof.Machine.execVrmax t w s
  | .vrmin t w => Sys2Proof.Machine.execVrmin t w s
  | .vrsum t w => Sys2Proof.Machine.execVrsum t w s
  | .smxMax t w => Sys2Proof.Machine.execSmxMax t w s
  | .smxSum t w => Sys2Proof.Machine.execSmxSum t w s
  | .vrng t w => Sys2Proof.Machine.execVrng t w s
  | .lds t w flips => Sys2Proof.Machine.execLds t w flips s
  | .sts t w => Sys2Proof.Machine.execSts t w s
  | .ldv t w flips => Sys2Proof.Machine.execLdv t w flips s
  | .stv t w => Sys2Proof.Machine.execStv t w s
  | .asave t w ecc => Sys2Proof.Machine.execAsave t w ecc s
  | .aload t w flips => Sys2Proof.Machine.execAload t w flips s
  | .aadd t w flips ecc => Sys2Proof.Machine.execAadd t w flips ecc s
  | .crd t w => Sys2Proof.Machine.execCrd t w s
  | .cwr t w flips => Sys2Proof.Machine.execCwr t w flips s
  | .cellarStreamDone k id faults => Sys2Proof.Machine.execCellarStreamDone k id faults s
  | .pageRedirect site page fixed bad => Sys2Proof.Machine.execPageRedirect site page fixed bad s
  | .xsend t w flips => Sys2Proof.Machine.execXsend t w flips s
  | .xcrate t w flips => Sys2Proof.Machine.execXcrate t w flips s
  | .xhub t w flips => Sys2Proof.Machine.execXhub t w flips s
  | .xbind t w => Sys2Proof.Machine.execXbind t w s
  | .meshTransferArrival k id => Sys2Proof.Machine.execMeshTransferArrival k id s
  | .crateReceive => Sys2Proof.Machine.execCrateReceive s
  | .loop t w => Sys2Proof.Machine.execLoop t w s
  | .dly t w => Sys2Proof.Machine.execDly t w s
  | .dlyExpire t => Sys2Proof.Machine.execDlyExpire t s
  | .bend t w => Sys2Proof.Machine.execBend t w s
  | .align t w => Sys2Proof.Machine.execAlign t w s
  | .stepm t w => Sys2Proof.Machine.execStepm t w s
  | .halt t w => Sys2Proof.Machine.execHalt t w s
  | .jmp t w => Sys2Proof.Machine.execJmp t w s
  | .br t w => Sys2Proof.Machine.execBr t w s
  | .cfetch t w => Sys2Proof.Machine.execCfetch t w s
  | .pinset t w => Sys2Proof.Machine.execPinset t w s
  | .achk t w => Sys2Proof.Machine.execAchk t w s
  | .achkStallTimeout t => Sys2Proof.Machine.execAchkStallTimeout t s
  | .sadd t w => Sys2Proof.Machine.execSadd t w s
  | .ssub t w => Sys2Proof.Machine.execSsub t w s
  | .sand t w => Sys2Proof.Machine.execSand t w s
  | .sor t w => Sys2Proof.Machine.execSor t w s
  | .sxor t w => Sys2Proof.Machine.execSxor t w s
  | .sshl t w => Sys2Proof.Machine.execSshl t w s
  | .sshr t w => Sys2Proof.Machine.execSshr t w s
  | .ssra t w => Sys2Proof.Machine.execSsra t w s
  | .smul t w => Sys2Proof.Machine.execSmul t w s
  | .saddi t w => Sys2Proof.Machine.execSaddi t w s
  | .smovi t w => Sys2Proof.Machine.execSmovi t w s
  | .smvlc t w => Sys2Proof.Machine.execSmvlc t w s
  | .pcmp t w => Sys2Proof.Machine.execPcmp t w s
  | .pcmpi t w => Sys2Proof.Machine.execPcmpi t w s
  | .plc t w => Sys2Proof.Machine.execPlc t w s
  | .plog t w => Sys2Proof.Machine.execPlog t w s
  | .debugHalt u => Sys2Proof.Machine.execDebugHalt u s
  | .dbgHaltReq fn => Sys2Proof.Machine.execDbgHaltReq fn s
  | .dbgResume fn => Sys2Proof.Machine.execDbgResume fn s
  | .dbgStep fn => Sys2Proof.Machine.execDbgStep fn s
  | .dbgPeek fn v => Sys2Proof.Machine.execDbgPeek fn v s
  | .dbgPeekDone fn flips ecc => Sys2Proof.Machine.execDbgPeekDone fn flips ecc s
  | .frameStart mark => Sys2Proof.Machine.execFrameStart mark s
  | .displacedMark pos => Sys2Proof.Machine.execDisplacedMark pos s
  | .refLost => Sys2Proof.Machine.execRefLost s
  | .refRelock => Sys2Proof.Machine.execRefRelock s
  | .slotBoundary u => Sys2Proof.Machine.execSlotBoundary u s
  | .landingBeatStart u => Sys2Proof.Machine.execLandingBeatStart u s
  | .workCyclesDone r => Sys2Proof.Machine.execWorkCyclesDone r s
  | .earlyGate r => Sys2Proof.Machine.execEarlyGate r s
  | .stretch r sev => Sys2Proof.Machine.execStretch r sev s
  | .beatCfgWrite fn v lo hi => Sys2Proof.Machine.execBeatCfgWrite fn v lo hi s
  | .beatCfgApply u => Sys2Proof.Machine.execBeatCfgApply u s
  | .opChange fn q => Sys2Proof.Machine.execOpChange fn q s
  | .opChangeApply => Sys2Proof.Machine.execOpChangeApply s
  | .refreshWindow landing j => Sys2Proof.Machine.execRefreshWindow landing j s
  | .cellarHot site => Sys2Proof.Machine.execCellarHot site s
  | .stagingFetchStart c e => Sys2Proof.Machine.execStagingFetchStart c e s
  | .vaultPageRead c e reads faults => Sys2Proof.Machine.execVaultPageRead c e reads faults s
  | .shelfZeroed c sh => Sys2Proof.Machine.execShelfZeroed c sh s
  | .extentZeroed c => Sys2Proof.Machine.execExtentZeroed c s
  | .codewordSend p => Sys2Proof.Machine.execCodewordSend p s
  | .codewordReceive p cw bad corr => Sys2Proof.Machine.execCodewordReceive p cw bad corr s
  | .nakRepeat p => Sys2Proof.Machine.execNakRepeat p s
  | .crateIngress src => Sys2Proof.Machine.execCrateIngress src s
  | .fenceRelease n => Sys2Proof.Machine.execFenceRelease n s
  | .fenceStall n => Sys2Proof.Machine.execFenceStall n s
  | .laneLockLoss p lane => Sys2Proof.Machine.execLaneLockLoss p lane s
  | .laneRelockTimeout p lane => Sys2Proof.Machine.execLaneRelockTimeout p lane s
  | .linkFold p => Sys2Proof.Machine.execLinkFold p s
  | .foldStateReceive p => Sys2Proof.Machine.execFoldStateReceive p s
  | .replayRateInterval p => Sys2Proof.Machine.execReplayRateInterval p s
  | .detectTimeout p => Sys2Proof.Machine.execDetectTimeout p s
  | .checkMessageSend p => Sys2Proof.Machine.execCheckMessageSend p s
  | .checkMessageReceive p => Sys2Proof.Machine.execCheckMessageReceive p s
  | .keyingMessageSend p => Sys2Proof.Machine.execKeyingMessageSend p s
  | .keyingMessageReceive p => Sys2Proof.Machine.execKeyingMessageReceive p s
  | .keyingTimeout p => Sys2Proof.Machine.execKeyingTimeout p s
  | .linkMessageTimeout p sub => Sys2Proof.Machine.execLinkMessageTimeout p sub s
  | .probeReceive p => Sys2Proof.Machine.execProbeReceive p s
  | .echoReceive p => Sys2Proof.Machine.execEchoReceive p s
  | .measureDone p => Sys2Proof.Machine.execMeasureDone p s
  | .frameStartCrateReceive p => Sys2Proof.Machine.execFrameStartCrateReceive p s
  | .quarantineCheckSend p => Sys2Proof.Machine.execQuarantineCheckSend p s
  | .linkRetrain fn p => Sys2Proof.Machine.execLinkRetrain fn p s
  | .faultMessageReceive => Sys2Proof.Machine.execFaultMessageReceive s
  | .planStart c faults => Sys2Proof.Machine.execPlanStart c faults s
  | .stepCommit c faults => Sys2Proof.Machine.execStepCommit c faults s
  | .arrayRowTestDone k rows elsewhere => Sys2Proof.Machine.execArrayRowTestDone k rows elsewhere s
  | .outputRecordPlace fn h => Sys2Proof.Machine.execOutputRecordPlace fn h s
  | .requestDescriptorApply c => Sys2Proof.Machine.execRequestDescriptorApply c s
  | .cancelOutputStop c id => Sys2Proof.Machine.execCancelOutputStop c id s
  | .cancelEffect c id => Sys2Proof.Machine.execCancelEffect c id s
  | .logitDelivery k => Sys2Proof.Machine.execLogitDelivery k s
  | .draw c e slot faults => Sys2Proof.Machine.execDraw c e slot faults s
  | .sqTail fn q v lo => Sys2Proof.Machine.execSqTail fn q v lo s
  | .cqHead fn q v lo => Sys2Proof.Machine.execCqHead fn q v lo s
  | .descriptorFetch fn q bytes => Sys2Proof.Machine.execDescriptorFetch fn q bytes s
  | .fetchError fn q => Sys2Proof.Machine.execFetchError fn q s
  | .descriptorComplete n => Sys2Proof.Machine.execDescriptorComplete n s
  | .nop fn q => Sys2Proof.Machine.execNop fn q s
  | .wait fn q => Sys2Proof.Machine.execWait fn q s
  | .waitSatisfied fn q => Sys2Proof.Machine.execWaitSatisfied fn q s
  | .waitTimeout fn q => Sys2Proof.Machine.execWaitTimeout fn q s
  | .waitCycleCheck fn later => Sys2Proof.Machine.execWaitCycleCheck fn later s
  | .signalSet fn q => Sys2Proof.Machine.execSignalSet fn q s
  | .signalAdd fn q => Sys2Proof.Machine.execSignalAdd fn q s
  | .ctxCreate fn q params => Sys2Proof.Machine.execCtxCreate fn q params s
  | .ctxDestroy fn q => Sys2Proof.Machine.execCtxDestroy fn q s
  | .ctxTeardownDone c => Sys2Proof.Machine.execCtxTeardownDone c s
  | .planLoad fn q image => Sys2Proof.Machine.execPlanLoad fn q image s
  | .weightsLoad fn q manifest table list => Sys2Proof.Machine.execWeightsLoad fn q manifest table list s
  | .shardAttemptDone c l n data err => Sys2Proof.Machine.execShardAttemptDone c l n data err s
  | .shardFirstDeadline c l => Sys2Proof.Machine.execShardFirstDeadline c l s
  | .loadTimeout c l => Sys2Proof.Machine.execLoadTimeout c l s
  | .weightsSwapStage fn q manifest table => Sys2Proof.Machine.execWeightsSwapStage fn q manifest table s
  | .weightsSwapCommit fn q => Sys2Proof.Machine.execWeightsSwapCommit fn q s
  | .weightsSwapStageAndCommit fn q manifest table => Sys2Proof.Machine.execWeightsSwapStageAndCommit fn q manifest table s
  | .weightsSwapDirect fn q manifest table => Sys2Proof.Machine.execWeightsSwapDirect fn q manifest table s
  | .swapBarrierStart c => Sys2Proof.Machine.execSwapBarrierStart c s
  | .swapCommitDone c faults => Sys2Proof.Machine.execSwapCommitDone c faults s
  | .adapterLoad fn q manifest table => Sys2Proof.Machine.execAdapterLoad fn q manifest table s
  | .adapterReplace fn q manifest table => Sys2Proof.Machine.execAdapterReplace fn q manifest table s
  | .adapterRemove fn q => Sys2Proof.Machine.execAdapterRemove fn q s
  | .adapterSlotTimeout c n => Sys2Proof.Machine.execAdapterSlotTimeout c n s
  | .reqAdmit fn q block input mask faults => Sys2Proof.Machine.execReqAdmit fn q block input mask faults s
  | .reqFeedTokens fn q bytes => Sys2Proof.Machine.execReqFeedTokens fn q bytes s
  | .reqFeedData fn q bytes => Sys2Proof.Machine.execReqFeedData fn q bytes s
  | .reqFeedTree fn q bytes => Sys2Proof.Machine.execReqFeedTree fn q bytes s
  | .reqCancel fn q => Sys2Proof.Machine.execReqCancel fn q s
  | .reqCancelAll fn q => Sys2Proof.Machine.execReqCancelAll fn q s
  | .copy fn q data faults => Sys2Proof.Machine.execCopy fn q data faults s
  | .encodeOpen fn q => Sys2Proof.Machine.execEncodeOpen fn q s
  | .encodeFrames fn q => Sys2Proof.Machine.execEncodeFrames fn q s
  | .encodeFramesRelease fn st => Sys2Proof.Machine.execEncodeFramesRelease fn st s
  | .encodeFrameDone fn st bits faults => Sys2Proof.Machine.execEncodeFrameDone fn st bits faults s
  | .encodeClose fn q => Sys2Proof.Machine.execEncodeClose fn q s
  | .domainStart fn q faults => Sys2Proof.Machine.execDomainStart fn q faults s
  | .domainStop fn q => Sys2Proof.Machine.execDomainStop fn q s
  | .domainStopEffect => Sys2Proof.Machine.execDomainStopEffect s
  | .domainResume fn q => Sys2Proof.Machine.execDomainResume fn q s
  | .checkpoint fn q areas => Sys2Proof.Machine.execCheckpoint fn q areas s
  | .checkpointSnapshot c faults => Sys2Proof.Machine.execCheckpointSnapshot c faults s
  | .checkpointWriteDone c faults => Sys2Proof.Machine.execCheckpointWriteDone c faults s
  | .restore fn q data wrapped faults => Sys2Proof.Machine.execRestore fn q data wrapped faults s
  | .attest fn q request => Sys2Proof.Machine.execAttest fn q request s
  | .attestKey fn q request => Sys2Proof.Machine.execAttestKey fn q request s
  | .queueEnable fn q v lo => Sys2Proof.Machine.execQueueEnable fn q v lo s
  | .queueDisable fn q v lo => Sys2Proof.Machine.execQueueDisable fn q v lo s
  | .hatchEnable fn h v lo => Sys2Proof.Machine.execHatchEnable fn h v lo s
  | .hatchDisable fn h v lo => Sys2Proof.Machine.execHatchDisable fn h v lo s
  | .hatchFlagRefresh fn h line flags => Sys2Proof.Machine.execHatchFlagRefresh fn h line flags s
  | .failover fn => Sys2Proof.Machine.execFailover fn s
  | .failoverResume fn => Sys2Proof.Machine.execFailoverResume fn s
  | .tdispExit fn st => Sys2Proof.Machine.execTdispExit fn st s
  | .eventRingEnable fn v lo => Sys2Proof.Machine.execEventRingEnable fn v lo s
  | .evtHeadWrite fn v lo => Sys2Proof.Machine.execEvtHeadWrite fn v lo s
  | .eventInterrupt fn => Sys2Proof.Machine.execEventInterrupt fn s
  | .detWrite fn v lo => Sys2Proof.Machine.execDetWrite fn v lo s
  | .pwrCapWrite fn v lo other => Sys2Proof.Machine.execPwrCapWrite fn v lo other s
  | .counterClear fn off v size more => Sys2Proof.Machine.execCounterClear fn off v size more s
  | .statusW1c fn off v size race => Sys2Proof.Machine.execStatusW1c fn off v size race s
  | .registerWrite fn off v size => Sys2Proof.Machine.execRegisterWrite fn off v size s
  | .powerUp gone => Sys2Proof.Machine.execPowerUp gone s
  | .reversedInput cut => Sys2Proof.Machine.execReversedInput cut s
  | .perstAssert => Sys2Proof.Machine.execPerstAssert s
  | .perstDeassert held => Sys2Proof.Machine.execPerstDeassert held s
  | .warmBoot => Sys2Proof.Machine.execWarmBoot s
  | .readBoot => Sys2Proof.Machine.execReadBoot s
  | .writeBoot off v => Sys2Proof.Machine.execWriteBoot off v s
  | .bootRomStart => Sys2Proof.Machine.execBootRomStart s
  | .bootPortSwitch => Sys2Proof.Machine.execBootPortSwitch s
  | .bootGo mgmt v => Sys2Proof.Machine.execBootGo mgmt v s
  | .bootFetchTimeout => Sys2Proof.Machine.execBootFetchTimeout s
  | .bootBundleFetched bundle took rb en bad pages cut => Sys2Proof.Machine.execBootBundleFetched bundle took rb en bad pages cut s
  | .bootComplete => Sys2Proof.Machine.execBootComplete s
  | .getVersion who => Sys2Proof.Machine.execGetVersion who s
  | .getCapabilities who => Sys2Proof.Machine.execGetCapabilities who s
  | .negotiateAlgorithms who agree => Sys2Proof.Machine.execNegotiateAlgorithms who agree s
  | .getDigests who => Sys2Proof.Machine.execGetDigests who s
  | .getCertificate who slot offset length => Sys2Proof.Machine.execGetCertificate who slot offset length s
  | .challenge who slot nonce => Sys2Proof.Machine.execChallenge who slot nonce s
  | .getMeasurements who index nonce => Sys2Proof.Machine.execGetMeasurements who index nonce s
  | .keyExchange who key => Sys2Proof.Machine.execKeyExchange who key s
  | .finish who good => Sys2Proof.Machine.execFinish who good s
  | .endSession who => Sys2Proof.Machine.execEndSession who s
  | .pldmSensorRead id reading source => Sys2Proof.Machine.execPldmSensorRead id reading source s
  | .pldmPowerCapSet w => Sys2Proof.Machine.execPldmPowerCapSet w s
  | .inputLow mv back => Sys2Proof.Machine.execInputLow mv back s
  | .inputHigh mv back => Sys2Proof.Machine.execInputHigh mv back s
  | .inputLost => Sys2Proof.Machine.execInputLost s
  | .overvoltage cut => Sys2Proof.Machine.execOvervoltage cut s
  | .currentLimit mv ma => Sys2Proof.Machine.execCurrentLimit mv ma s
  | .overcurrent cut => Sys2Proof.Machine.execOvercurrent cut s
  | .railShort rail cut => Sys2Proof.Machine.execRailShort rail cut s
  | .thermalShutdown die cut => Sys2Proof.Machine.execThermalShutdown die cut s
  | .thermalHigh temp source back => Sys2Proof.Machine.execThermalHigh temp source back s
  | .thermalHighRepeat => Sys2Proof.Machine.execThermalHighRepeat s
  | .coolantHot temp back => Sys2Proof.Machine.execCoolantHot temp back s
  | .coolantCold temp back => Sys2Proof.Machine.execCoolantCold temp back s
  | .rampExceeded ma => Sys2Proof.Machine.execRampExceeded ma s
  | .powerCapExceeded avgs => Sys2Proof.Machine.execPowerCapExceeded avgs s
  | .watchdogMiss core => Sys2Proof.Machine.execWatchdogMiss core s
  | .firmwareMemoryUe core => Sys2Proof.Machine.execFirmwareMemoryUe core s
  | .laneLockRegained p lane => Sys2Proof.Machine.execLaneLockRegained p lane s
  | .lanePresenceDetected p cable bad => Sys2Proof.Machine.execLanePresenceDetected p cable bad s
  | .equaliseDone p => Sys2Proof.Machine.execEqualiseDone p s
  | .codewordLock p => Sys2Proof.Machine.execCodewordLock p s
  | .cxlLinkDown p => Sys2Proof.Machine.execCxlLinkDown p s
  | .cxlLinkUp p speed width => Sys2Proof.Machine.execCxlLinkUp p speed width s
  | .doubledRefreshEnd site => Sys2Proof.Machine.execDoubledRefreshEnd site s
  | .tdispMessage fn req => Sys2Proof.Machine.execTdispMessage fn req s
  | .ideKeyManagement fn port => Sys2Proof.Machine.execIdeKeyManagement fn port s
  | .checkpointStageCopyDone c faults => Sys2Proof.Machine.execCheckpointStageCopyDone c faults s
  | .restoreTimeout c n => Sys2Proof.Machine.execRestoreTimeout c n s
  | .inputInRange => Sys2Proof.Machine.execInputInRange s

end Sys2Proof.Machine
end

