-- ==== Sys2Proof/Safety.lean ====
section
/-!
DEFINITION. The terms in which statements speak of a state: what is ready to happen, and what a good state is.
-/
namespace Sys2Proof.Machine

/-! ### Tiles -/

/-- The tile issues the slot word `w` of slot `sl` now, as part of the bundle `b`: nothing holds it, the bundle is in its cache,
has not come late, does not stall and is legal as a whole, and the slot has not issued yet (R76, R105, R128, R129). -/
def State.ready (s : State) (k : Nat) (sl : Slot) (w : SlotWord) (b : BitVec 256) : Prop :=
  s.mayIssue k = true ∧ (∃ i, (s.tile k).lookup = .hit i b) ∧ slotOf b sl = w ∧ (s.tile k).issued.contains sl = false ∧
  ((s.tile k).issued.isEmpty && s.stalls k b) = false ∧ (s.tile k).bundleIllegal b = false ∧
  (s.tile k).achkVoid = false ∧ (s.tile k).lateFill = false

/-- Whether the fields of a slot word are in the ranges that its operation's table gives, and the operation may stand where it
does (R107, R113, R116 to R119, R125, R128, R135). -/
def Tile.fieldsLegal (t : Tile) (timed : Bool) (sl : Slot) (w : SlotWord) : Bool :=
  match sl, opOf w with
  | .m, 0x01 => decide (fld w 19 14 < 36)
  | .v, 0x08 => decide (fld w 2 0 < 6)
  | .v, 0x1C => decide (fld w 2 0 < 4)
  | .v, 0x24 => (cvtPair w).isSome
  | .v, 0x25 => (mxqFmt w).isSome
  | .v, 0x30 => vdF w != vcF w
  | .v, 0x31 => vdF w != fld w 6 2
  | .l, 0x05 | .l, 0x06 | .l, 0x07 => decide (fld w 32 24 + fld w 23 15 ≤ 511)
  | .x, 0x02 | .x, 0x04 => !t.elreri
  | .x, 0x03 => decide (fld w 32 30 < 2)
  | .c, 0x03 | .c, 0x04 => !t.elreri
  | .c, 0x08 => !timed
  | .c, 0x20 | .c, 0x21 => decide (fld w 24 22 < 6)
  | _, _ => true

/-- A command that issues a slot word: its slot and opcode and the command, with no fault observed. -/
structure SlotRow where
  slot : Slot
  op : Nat
  cmd : Nat → SlotWord → Instr

/-- Every command that issues a defined operation (R113, R116 to R119, R125). -/
def slotRows : List SlotRow :=
  [⟨.m, 0x01, fun k w => .mmul k w []⟩, ⟨.m, 0x02, .mcfg⟩,
   ⟨.v, 0x01, .vaddI⟩, ⟨.v, 0x02, .vsubI⟩, ⟨.v, 0x03, .vand⟩, ⟨.v, 0x04, .vor⟩, ⟨.v, 0x05, .vxor⟩, ⟨.v, 0x06, .vshl⟩,
   ⟨.v, 0x07, .vshr⟩, ⟨.v, 0x08, .vcmpI⟩, ⟨.v, 0x09, .vsel⟩, ⟨.v, 0x0A, .vminI⟩, ⟨.v, 0x0B, .vmaxI⟩, ⟨.v, 0x0C, .vabsI⟩,
   ⟨.v, 0x0D, .vmulI⟩, ⟨.v, 0x10, .vbcs⟩, ⟨.v, 0x11, .vbcl⟩, ⟨.v, 0x12, .vmvs⟩, ⟨.v, 0x13, .vmsv⟩, ⟨.v, 0x14, .vperm⟩,
   ⟨.v, 0x18, .vnegF⟩, ⟨.v, 0x19, .vabsF⟩, ⟨.v, 0x1A, .vminF⟩, ⟨.v, 0x1B, .vmaxF⟩, ⟨.v, 0x1C, .vcmpF⟩, ⟨.v, 0x1D, .vaddF⟩,
   ⟨.v, 0x1E, .vsubF⟩, ⟨.v, 0x1F, .vmulF⟩, ⟨.v, 0x20, .vfmaF⟩, ⟨.v, 0x24, .vcvt⟩, ⟨.v, 0x25, .vmxq⟩, ⟨.v, 0x28, .vexp2⟩,
   ⟨.v, 0x29, .vrcp⟩, ⟨.v, 0x2A, .vrsq⟩, ⟨.v, 0x2B, .vexp⟩, ⟨.v, 0x2C, .vrmax⟩, ⟨.v, 0x2D, .vrmin⟩, ⟨.v, 0x2E, .vrsum⟩,
   ⟨.v, 0x30, .smxMax⟩, ⟨.v, 0x31, .smxSum⟩, ⟨.v, 0x34, .vrng⟩,
   ⟨.l, 0x01, fun k w => .lds k w []⟩, ⟨.l, 0x02, .sts⟩, ⟨.l, 0x03, fun k w => .ldv k w []⟩, ⟨.l, 0x04, .stv⟩,
   ⟨.l, 0x05, fun k w => .asave k w []⟩, ⟨.l, 0x06, fun k w => .aload k w []⟩, ⟨.l, 0x07, fun k w => .aadd k w [] []⟩,
   ⟨.l, 0x08, .crd⟩, ⟨.l, 0x09, fun k w => .cwr k w []⟩,
   ⟨.x, 0x01, fun k w => .xsend k w []⟩, ⟨.x, 0x02, fun k w => .xcrate k w []⟩, ⟨.x, 0x03, fun k w => .xhub k w []⟩, ⟨.x, 0x04, .xbind⟩,
   ⟨.c, 0x01, .loop⟩, ⟨.c, 0x02, .dly⟩, ⟨.c, 0x03, .bend⟩, ⟨.c, 0x04, .align⟩, ⟨.c, 0x05, .stepm⟩, ⟨.c, 0x06, .halt⟩,
   ⟨.c, 0x07, .jmp⟩, ⟨.c, 0x08, .br⟩, ⟨.c, 0x09, .cfetch⟩, ⟨.c, 0x0A, .pinset⟩, ⟨.c, 0x0B, .achk⟩,
   ⟨.c, 0x10, .sadd⟩, ⟨.c, 0x11, .ssub⟩, ⟨.c, 0x12, .sand⟩, ⟨.c, 0x13, .sor⟩, ⟨.c, 0x14, .sxor⟩, ⟨.c, 0x15, .sshl⟩,
   ⟨.c, 0x16, .sshr⟩, ⟨.c, 0x17, .ssra⟩, ⟨.c, 0x18, .smul⟩, ⟨.c, 0x19, .saddi⟩, ⟨.c, 0x1A, .smovi⟩, ⟨.c, 0x1B, .smvlc⟩,
   ⟨.c, 0x20, .pcmp⟩, ⟨.c, 0x21, .pcmpi⟩, ⟨.c, 0x22, .plc⟩, ⟨.c, 0x23, .plog⟩]

/-- The order in which writes of one cycle are applied (R106): V, L, X, C, M; the array's own come after them, at 5. -/
def slotRank : Slot → Nat
  | .v => 0 | .l => 1 | .x => 2 | .c => 3 | .m => 4

/-- A result of tile `k` is on its way: due `lat` cycles from now, in the place of R106 that `rank` gives. -/
def State.withResult (s : State) (k lat rank : Nat) (g : Target) : State := s.setTile k ((s.tile k).later lat rank g)

/-- A V-slot operation that computes lane by lane: its command, opcode, latency and the lane function of the slot word and the
lanes of VA, VB and VC. -/
structure LaneRow where
  cmd : Nat → SlotWord → Instr
  op : Nat
  lat : Nat
  f : SlotWord → BitVec 32 → BitVec 32 → BitVec 32 → BitVec 32

/-- All ones or zero. -/
def maskOf (b : Bool) : BitVec 32 := if b then 0xFFFFFFFF#32 else 0#32

/-- The integer operations of R116 that work lane by lane. -/
def intLanes : List LaneRow :=
  [⟨.vaddI, 0x01, 1, fun _ a b _ => a + b⟩,
   ⟨.vsubI, 0x02, 1, fun _ a b _ => a - b⟩,
   ⟨.vand, 0x03, 1, fun _ a b _ => a &&& b⟩,
   ⟨.vor, 0x04, 1, fun _ a b _ => a ||| b⟩,
   ⟨.vxor, 0x05, 1, fun _ a b _ => a ^^^ b⟩,
   ⟨.vshl, 0x06, 1, fun w a b _ => a <<< (if flag w 17 then fld w 4 0 else b.toNat % 32)⟩,
   ⟨.vshr, 0x07, 1, fun w a b _ =>
      let n := if flag w 17 then fld w 4 0 else b.toNat % 32
      if flag w 16 then a.sshiftRight n else a >>> n⟩,
   ⟨.vcmpI, 0x08, 1, fun w a b _ =>
      maskOf (match fld w 2 0 with
        | 0 => a == b | 1 => a != b | 2 => decide (a.toInt < b.toInt) | 3 => decide (b.toInt ≤ a.toInt)
        | 4 => decide (a < b) | _ => decide (b ≤ a))⟩,
   ⟨.vsel, 0x09, 1, fun _ a b c => if c = 0 then b else a⟩,
   ⟨.vminI, 0x0A, 1, fun _ a b _ => if a.toInt < b.toInt then a else b⟩,
   ⟨.vmaxI, 0x0B, 1, fun _ a b _ => if a.toInt < b.toInt then b else a⟩,
   ⟨.vmulI, 0x0D, 3, fun _ a b _ => a * b⟩]

/-- The FP32 operations of R116 that work lane by lane, and the transcendental ones. -/
def floatLanes : List LaneRow :=
  [⟨.vnegF, 0x18, 1, fun _ a _ _ => if F32.isNaN a then nan32 else a ^^^ 0x80000000#32⟩,
   ⟨.vabsF, 0x19, 1, fun _ a _ _ => if F32.isNaN a then nan32 else a &&& 0x7FFFFFFF#32⟩,
   ⟨.vminF, 0x1A, 2, fun _ a b _ => fmin a b⟩,
   ⟨.vmaxF, 0x1B, 2, fun _ a b _ => fmax a b⟩,
   ⟨.vcmpF, 0x1C, 2, fun w a b _ => maskOf (fcondHolds (fld w 2 0) a b)⟩,
   ⟨.vaddF, 0x1D, 4, fun _ a b _ => fadd a b⟩,
   ⟨.vsubF, 0x1E, 4, fun _ a b _ => fsub a b⟩,
   ⟨.vmulF, 0x1F, 4, fun _ a b _ => fmul a b⟩,
   ⟨.vfmaF, 0x20, 5, fun _ a b c => ffma a b c⟩,
   ⟨.vexp2, 0x28, 6, fun _ a _ _ => fexp2 a⟩,
   ⟨.vrcp, 0x29, 6, fun _ a _ _ => frcp a⟩,
   ⟨.vrsq, 0x2A, 7, fun _ a _ _ => frsq a⟩,
   ⟨.vexp, 0x2B, 8, fun _ a _ _ => fexp a⟩]

/-- A C-slot operation that writes SD from SA and SB. -/
structure ScalarRow where
  cmd : Nat → SlotWord → Instr
  op : Nat
  lat : Nat
  f : W64 → W64 → W64

/-- The two-operand scalar operations of R125. -/
def scalarRows : List ScalarRow :=
  [⟨.sadd, 0x10, 1, fun a b => a + b⟩, ⟨.ssub, 0x11, 1, fun a b => a - b⟩, ⟨.sand, 0x12, 1, fun a b => a &&& b⟩,
   ⟨.sor, 0x13, 1, fun a b => a ||| b⟩, ⟨.sxor, 0x14, 1, fun a b => a ^^^ b⟩,
   ⟨.sshl, 0x15, 1, fun a b => a <<< (b.toNat % 64)⟩, ⟨.sshr, 0x16, 1, fun a b => a >>> (b.toNat % 64)⟩,
   ⟨.ssra, 0x17, 1, fun a b => a.sshiftRight (b.toNat % 64)⟩, ⟨.smul, 0x18, 3, fun a b => a * b⟩]

/-- Nothing that a checkpoint of the context captures carries the marker, and its reads meet no fault (R202, R208, R405). -/
def State.ckptReadable (s : State) (c : Nat) (k : Ckpt) : Prop :=
  (∀ n, s.marked n = false) ∧ (∀ e ∈ s.ckptSpans c k.areas, ∃ ad, s.checkExtent (some c) e.1 e.2.1 = .ok ad) ∧
  ∀ p ∈ (s.ctx c).reqs, ∃ ad, s.checkExtent (some c) p.2.recBase ((s.ctx c).recordBytes p.2) = .ok ad

/-- How often the end of a transfer counts arrival counter `i`. -/
def Arrival.adds (i : Nat) : Arrival → Nat
  | .more => 0
  | .count c => if i = c then 1 else 0
  | .stream _ c => if i = c then 1 else 0
  | .crate _ _ => 0

/-- The chunks that received bytes come in: at most 128 bytes a cycle, in address order, each with the transfer's poison flag, and the last
one ending the transfer as `fin` says (R73, R121). -/
def chunked (cs : List Chunk) (addr : Nat) (bs : List Byte) (poison : Bool) (fin : Arrival) : Prop :=
  cs.length = max 1 ((bs.length + 127) / 128) ∧ cs.flatMap (·.data) = bs ∧
  ∀ i x, cs[i]? = some x →
    x.addr = addr + 128 * i ∧ x.data.length ≤ 128 ∧ x.poison = poison ∧ x.done = if i + 1 = cs.length then fin else .more

/-- What a tile `v` of a running region becomes, between the states `s` and `t`, when bytes reach it.  A tile that issues holds them for its
work cycles, one chunk a cycle; in a tile without a program, and in one whose issue is held with nothing in flight, they are in place at once
(R73, R121, R164). -/
def State.receives (s t : State) (k : Nat) (v : Tile) (addr : Nat) (bs : List Byte) (poison : Bool) (fin : Arrival) : Prop :=
  (v.code.isSome = true ∧ v.hold = .free →
    (∃ cs, chunked cs addr bs poison fin ∧ t.tile k = { v with recv := v.recv ++ cs }) ∧ t.regs = s.regs) ∧
  (v.recv = [] → v.code = none ∨ (v.hold ≠ .free ∧ v.quiet = true) →
    (t.tile k).recv = [] ∧ (t.tile k).poison = (v.poison || poison) ∧ (t.tile k).hold = v.hold ∧
    (∀ a, readByte (t.tile k).larder a = if addr ≤ a ∧ a < addr + bs.length then bs.getD (a - addr) 0 else readByte v.larder a) ∧
    (∀ i, (t.tile k).acReg i = v.acReg i + fin.adds i) ∧ t.regs = s.regs)

/-- Binding `i` of a tile is the one that a stream's crates match: the lowest-numbered valid one (R123). -/
def Tile.binds (t : Tile) (stream i : Nat) : Prop :=
  i < 64 ∧ (mget 0 t.bind i).getLsbD 11 = true ∧ getBits (mget 0 t.bind i) 10 0 = stream ∧
  ∀ j, j < i → ¬((mget 0 t.bind j).getLsbD 11 = true ∧ getBits (mget 0 t.bind j) 10 0 = stream)

/-- The place of a crate in the ring of its binding `v` (R119, R123). -/
def ringPlace (v : W64) (seq : Nat) : Nat := getBits v 41 20 + 40 * (seq % 2 ^ getBits v 19 16)

/-! ### Queues and descriptors -/

/-- The descriptor `d` of a queue starts to execute now, and its header is in order; `u` is the state with it started (R330, R331). -/
def State.starts (s : State) (fn q : Nat) (d : DescRef) (u : State) : Prop :=
  ∃ f, s.nextDesc fn q (fun _ => true) = some f ∧ s.begin fn q f = (d, u) ∧ d.headerFault = none

/-- A command that executes a descriptor: which descriptor it serves, and the command with nothing read from the host. -/
structure DescRow where
  serves : List Byte → Bool
  cmd : Nat → Nat → Instr

/-- Opcode and one byte of the operands. -/
def isSub (op off : Nat) (v : Nat) (bs : List Byte) : Bool := fieldAt bs 0 1 == op && fieldAt bs (16 + off) 1 == v

/-- Every command that executes a descriptor (R334). -/
def descRows : List DescRow :=
  [⟨fun bs => opIs 0x01 bs || !(knownOpcodes.contains (fieldAt bs 0 1)), .nop⟩,
   ⟨opIs 0x02, .wait⟩, ⟨fun bs => opIs 0x03 bs && !isSub 0x03 2 1 bs, .signalSet⟩, ⟨isSub 0x03 2 1, .signalAdd⟩,
   ⟨opIs 0x10, fun f q => .ctxCreate f q []⟩, ⟨opIs 0x11, .ctxDestroy⟩, ⟨opIs 0x12, fun f q => .planLoad f q []⟩,
   ⟨opIs 0x13, fun f q => .weightsLoad f q [] [] []⟩,
   ⟨fun bs => opIs 0x14 bs && !isSub 0x14 1 2 bs && !isSub 0x14 1 3 bs && !isSub 0x14 1 4 bs, fun f q => .weightsSwapStage f q [] []⟩,
   ⟨isSub 0x14 1 2, .weightsSwapCommit⟩, ⟨isSub 0x14 1 3, fun f q => .weightsSwapStageAndCommit f q [] []⟩,
   ⟨isSub 0x14 1 4, fun f q => .weightsSwapDirect f q [] []⟩, ⟨opIs 0x15, fun f q => .adapterLoad f q [] []⟩,
   ⟨fun bs => opIs 0x16 bs && !isSub 0x16 1 1 bs, fun f q => .adapterReplace f q [] []⟩, ⟨isSub 0x16 1 1, .adapterRemove⟩,
   ⟨opIs 0x20, fun f q => .reqAdmit f q [] [] [] []⟩, ⟨fun bs => opIs 0x21 bs && !isSub 0x21 1 1 bs, .reqCancel⟩,
   ⟨isSub 0x21 1 1, .reqCancelAll⟩,
   ⟨fun bs => opIs 0x22 bs && !isSub 0x22 1 2 bs && !isSub 0x22 1 3 bs, fun f q => .reqFeedTokens f q []⟩,
   ⟨isSub 0x22 1 2, fun f q => .reqFeedData f q []⟩, ⟨isSub 0x22 1 3, fun f q => .reqFeedTree f q []⟩,
   ⟨opIs 0x30, fun f q => .copy f q [] []⟩,
   ⟨fun bs => opIs 0x31 bs && !isSub 0x31 1 2 bs && !isSub 0x31 1 3 bs, .encodeOpen⟩, ⟨isSub 0x31 1 2, .encodeFrames⟩,
   ⟨isSub 0x31 1 3, .encodeClose⟩, ⟨opIs 0x40, fun f q => .domainStart f q []⟩, ⟨opIs 0x41, .domainStop⟩, ⟨opIs 0x42, .domainResume⟩,
   ⟨opIs 0x50, fun f q => .checkpoint f q []⟩, ⟨opIs 0x51, fun f q => .restore f q [] [] []⟩,
   ⟨fun bs => opIs 0x60 bs && opdByte bs 1 % 2 == 0, fun f q => .attest f q []⟩,
   ⟨fun bs => opIs 0x60 bs && opdByte bs 1 % 2 == 1, fun f q => .attestKey f q []⟩, ⟨opIs 0x70, .opChange⟩]

/-! ### The fabric, and registers -/

/-- Nothing outside the fabric, the clocks, the registers, the fault records and the outputs differs. -/
def State.fabricOnly (s t : State) : Prop :=
  t.tiles = s.tiles ∧ t.mem = s.mem ∧ t.ctxs = s.ctxs ∧ t.host = s.host ∧ t.dom = s.dom ∧ t.boot = s.boot ∧ t.power = s.power ∧
  t.pending = s.pending

/-- Registers whose write is no command of its own (R7, R9). -/
def plainReg (off : Nat) : Bool :=
  !([0x1200, 0x30000, 0x60008, 0x60018, 0xA0000, 0x90008, 0x70000, 0x70300].contains off) &&
  !(decide (0x10400 ≤ off) && decide (off < 0x10C00) && off % 32 == 0) &&
  !(decide (0x20100 ≤ off) && decide (off < 0x20500) && off % 64 == 0) &&
  !(decide (0x40400 ≤ off) && decide (off < 0x40A00) && off % 64 == 0x38)

end Sys2Proof.Machine
end

