-- ==== Sys2Proof/Certificates/Slice0/Obligations.lean ====
section
/-!
DEFINITION. The statements about the block, one definition each.
-/
open Sys2Proof Sys2Proof.Machine

/-- One step runs the command at the front of the queue on the state with the queue's rest. -/
def Obligations.StepRunsFrontCommand : Prop :=
  ∀ (c : Instr) (rest : List Instr) (s : State),
    Sys2Proof.Machine.step { s with pending := c :: rest } = Sys2Proof.Machine.exec c { s with pending := rest }

/-- The model's choice of log entries 2 and 42: on an empty queue the tick count goes on by one while the root clock runs, up to its
maximum, and one rail moves where rails are to: while the module comes up the next one in the order of R451 reaches regulation, the last with
PWRGD, and while it is off the last of those that are up falls (R452).  Nothing else changes. -/
def Obligations.EmptyQueueIdles : Prop :=
  ∀ s : State, s.pending = [] →
    ∃ t : State, Sys2Proof.Machine.step s = .next t ∧
      t.clk.tick = (if s.clk.locked then min (s.clk.tick + 1) (2 ^ 64 - 1) else s.clk.tick) ∧
      t = { s with clk := { s.clk with tick := t.clk.tick }, power := t.power } ∧
      (s.power.rising = true → t.power = { s.power with
        rails := [0, 2, 1, 3, 4, 5, 6, 7].take (s.power.rails.length + 1)
        good := decide (7 ≤ s.power.rails.length)
        rising := decide (s.power.rails.length < 7) }) ∧
      (s.power.rising = false → t.power = if s.power.good then s.power else { s.power with rails := s.power.rails.dropLast })

/-- R109: the PRED field selects a predicate register and inverts it; 0b0000 is always and 0b1000 never; and, whatever its operation, a
slot whose predicate is false issues without effect. -/
def Obligations.FalsePredicateHasNoEffect : Prop :=
  (∀ (t : Tile) (w : SlotWord), t.predOk w = Bool.xor (t.predReg (fld w 40 38)) (flag w 41)) ∧
  (∀ (t : Tile) (w : SlotWord), (fld w 41 38 = 0 → t.predOk w = true) ∧ (fld w 41 38 = 8 → t.predOk w = false)) ∧
  (∀ (s : State) (k : Nat) (w : SlotWord) (b : BitVec 256), ∀ r ∈ slotRows, s.ready k r.slot w b → opOf w = r.op →
    (s.tile k).fieldsLegal ((s.tile k).bundleTimed b) r.slot w = true → (s.tile k).predOk w = false →
    Sys2Proof.Machine.exec (r.cmd k w) s = .next (s.slotIssued k r.slot b))

/-- R107: an operation with a field out of its range, or placed where it may not stand, has no effect of its own: the tile sets
its poison state and raises TIMING_BREAK, and the slot has issued.
R107, R111: a slot with opcode 0 issues without effect; one whose opcode its table does not define issues as an illegal
operation. -/
def Obligations.IllegalAndEmptySlots : Prop :=
  (∀ (s : State) (k : Nat) (w : SlotWord) (b : BitVec 256), ∀ r ∈ slotRows, s.ready k r.slot w b → opOf w = r.op →
      (s.tile k).fieldsLegal ((s.tile k).bundleTimed b) r.slot w = false →
      Sys2Proof.Machine.exec (r.cmd k w) s =
        .next ((s.modTile k (fun t => { t with poison := true, cause := t.cause ||| 0x20#7, events := t.events ++ [.timingBreak] })).slotIssued
          k r.slot b)) ∧
  (∀ (s : State) (k n : Nat) (w : SlotWord) (b : BitVec 256), s.ready k (slotOfNat n) w b →
      (opOf w = 0 → Sys2Proof.Machine.exec (.tileNop k n false) s = .next (s.slotIssued k (slotOfNat n) b)) ∧
      (opOf w ≠ 0 → opOf w ∉ definedOps (slotOfNat n) →
        Sys2Proof.Machine.exec (.tileNop k n false) s = .next ((s.modTile k Tile.illegal).slotIssued k (slotOfNat n) b)))

/-- R63, R64, R116: each integer, FP32 and transcendental operation puts VD's result on its way, with the latency of the
table; every lane of it is the table's function of the lanes of VA, VB and VC as they are when the operation issues. -/
def Obligations.LaneResults : Prop :=
  (∀ (s : State) (k : Nat) (w : SlotWord) (b : BitVec 256), s.ready k .v w b → (s.tile k).predOk w = true →
      ∀ r ∈ intLanes, opOf w = r.op → (s.tile k).fieldsLegal ((s.tile k).bundleTimed b) .v w = true →
        ∃ v : BitVec 2048,
          Sys2Proof.Machine.exec (r.cmd k w) s = .next ((s.withResult k r.lat (slotRank .v) (.vreg (vdF w) allLanes v)).slotIssued k .v b) ∧
          ∀ i, i < 64 → laneOf v i =
            r.f w (laneOf ((s.tile k).vreg (vaF w)) i) (laneOf ((s.tile k).vreg (vbF w)) i) (laneOf ((s.tile k).vreg (vcF w)) i)) ∧
  (∀ (s : State) (k : Nat) (w : SlotWord) (b : BitVec 256), s.ready k .v w b → (s.tile k).predOk w = true →
      ∀ r ∈ floatLanes, opOf w = r.op → (s.tile k).fieldsLegal ((s.tile k).bundleTimed b) .v w = true →
        ∃ v : BitVec 2048,
          Sys2Proof.Machine.exec (r.cmd k w) s = .next ((s.withResult k r.lat (slotRank .v) (.vreg (vdF w) allLanes v)).slotIssued k .v b) ∧
          ∀ i, i < 64 → laneOf v i =
            r.f w (laneOf ((s.tile k).vreg (vaF w)) i) (laneOf ((s.tile k).vreg (vbF w)) i) (laneOf ((s.tile k).vreg (vcF w)) i))

/-- R116: the absolute value of every lane but the most negative one (for which the spec states no result: log entry 14), and the
moves between lanes and scalar registers.
R65, R66, R101, R102, R116, R117: conversions, reductions, the softmax pair and the random numbers put their results on
their way with the latencies of the table. -/
def Obligations.MovesAndGroupResults : Prop :=
  (∀ (s : State) (k : Nat) (w : SlotWord) (b : BitVec 256), s.ready k .v w b → (s.tile k).predOk w = true →
      let t := s.tile k
      (opOf w = 0x0C → ∃ v, Sys2Proof.Machine.exec (.vabsI k w) s = .next ((s.withResult k 1 (slotRank .v) (.vreg (vdF w) allLanes v)).slotIssued k .v b) ∧
        ∀ i, i < 64 → laneOf (t.vreg (vaF w)) i ≠ 0x80000000#32 →
          (laneOf v i).toInt = (laneOf (t.vreg (vaF w)) i).toInt.natAbs) ∧
      (opOf w = 0x10 → ∃ v, Sys2Proof.Machine.exec (.vbcs k w) s = .next ((s.withResult k 1 (slotRank .v) (.vreg (vdF w) allLanes v)).slotIssued k .v b) ∧
        ∀ i, i < 64 → laneOf v i = (t.sreg (vaF w)).setWidth 32) ∧
      (opOf w = 0x11 → ∃ v, Sys2Proof.Machine.exec (.vbcl k w) s = .next ((s.withResult k 1 (slotRank .v) (.vreg (vdF w) allLanes v)).slotIssued k .v b) ∧
        ∀ i, i < 64 → laneOf v i = laneOf (t.vreg (vaF w)) (fld w 5 0)) ∧
      (opOf w = 0x12 → Sys2Proof.Machine.exec (.vmvs k w) s =
        .next ((s.withResult k 1 (slotRank .v) (.sreg (vdF w) ((laneOf (t.vreg (vaF w)) (fld w 5 0)).setWidth 64))).slotIssued k .v b)) ∧
      (opOf w = 0x13 → ∃ lanes v, Sys2Proof.Machine.exec (.vmsv k w) s =
          .next ((s.withResult k 1 (slotRank .v) (.vreg (vdF w) lanes v)).slotIssued k .v b) ∧
        ∀ i, i < 64 → lanes.getLsbD i = decide (i = fld w 5 0) ∧ laneOf v i = (t.sreg (vaF w)).setWidth 32) ∧
      (opOf w = 0x14 → ∃ v, Sys2Proof.Machine.exec (.vperm k w) s = .next ((s.withResult k 2 (slotRank .v) (.vreg (vdF w) allLanes v)).slotIssued k .v b) ∧
        ∀ i, i < 64 → laneOf v i = laneOf (t.vreg (vaF w)) ((laneOf (t.vreg (vbF w)) i).toNat % 64))) ∧
  (∀ (s : State) (k : Nat) (w : SlotWord) (b : BitVec 256), s.ready k .v w b → (s.tile k).predOk w = true →
      (s.tile k).fieldsLegal ((s.tile k).bundleTimed b) .v w = true →
      let t := s.tile k
      let g := 2 ^ (3 + fld w 1 0)
      let group := fun (v : BitVec 2048) (i : Nat) => (List.range g).map (fun j => laneOf v (i / g * g + j))
      (opOf w = 0x24 → Sys2Proof.Machine.exec (.vcvt k w) s =
        .next ((s.withResult k 3 (slotRank .v) (.vreg (vdF w) allLanes (cvtResult w (t.vreg (vaF w))))).slotIssued k .v b)) ∧
      (opOf w = 0x25 → ∃ f, mxqFmt w = some f ∧ Sys2Proof.Machine.exec (.vmxq k w) s =
        .next ((s.withResult k 6 (slotRank .v) (.vreg (vdF w) allLanes (mxqResult f (t.vreg (vaF w))))).slotIssued k .v b)) ∧
      (opOf w = 0x2C → ∃ v, Sys2Proof.Machine.exec (.vrmax k w) s = .next ((s.withResult k 8 (slotRank .v) (.vreg (vdF w) allLanes v)).slotIssued k .v b) ∧
        ∀ i, i < 64 → laneOf v i = foldGroup fmax (group (t.vreg (vaF w)) i)) ∧
      (opOf w = 0x2D → ∃ v, Sys2Proof.Machine.exec (.vrmin k w) s = .next ((s.withResult k 8 (slotRank .v) (.vreg (vdF w) allLanes v)).slotIssued k .v b) ∧
        ∀ i, i < 64 → laneOf v i = foldGroup fmin (group (t.vreg (vaF w)) i)) ∧
      (opOf w = 0x2E → ∃ v, Sys2Proof.Machine.exec (.vrsum k w) s = .next ((s.withResult k 10 (slotRank .v) (.vreg (vdF w) allLanes v)).slotIssued k .v b) ∧
        ∀ i, i < 64 → laneOf v i = pairSum (3 + fld w 1 0) (group (t.vreg (vaF w)) i)) ∧
      (opOf w = 0x30 → ∃ vm vs, Sys2Proof.Machine.exec (.smxMax k w) s =
          .next (((s.withResult k 10 (slotRank .v) (.vreg (vdF w) allLanes vm)).withResult k 10 (slotRank .v) (.vreg (vcF w) allLanes vs)).slotIssued k .v b) ∧
        ∀ i, i < 64 →
          laneOf vm i = fmax (laneOf (t.vreg (vdF w)) (i / g * g)) (foldGroup fmax (group (t.vreg (vbF w)) i)) ∧
          laneOf vs i = (if laneOf vm i = 0xFF800000#32 then 0x3F800000#32
            else fexp (fsub (laneOf (t.vreg (vdF w)) i) (laneOf vm i)))) ∧
      (opOf w = 0x31 → ∃ vp vl, Sys2Proof.Machine.exec (.smxSum k w) s =
          .next (((s.withResult k 14 (slotRank .v) (.vreg (vdF w) allLanes vp)).withResult k 14 (slotRank .v) (.vreg (fld w 6 2) allLanes vl)).slotIssued k .v b) ∧
        ∀ i, i < 64 →
          laneOf vp i = (if laneOf (t.vreg (vbF w)) i = 0xFF800000#32 then 0#32
            else fexp (fsub (laneOf (t.vreg (vaF w)) i) (laneOf (t.vreg (vbF w)) i))) ∧
          laneOf vl i = fadd (fmul (laneOf (t.vreg (fld w 6 2)) i) (laneOf (t.vreg (vcF w)) i)) (pairSum (3 + fld w 1 0) (group vp i))) ∧
      (opOf w = 0x34 → ∃ v, Sys2Proof.Machine.exec (.vrng k w) s = .next ((s.withResult k 12 (slotRank .v) (.vreg (vdF w) allLanes v)).slotIssued k .v b) ∧
        ∀ n j, n < 16 → j < 4 →
          laneOf v (4 * n + j) = (philox (t.sreg (vaF w)) (t.sreg (vbF w) + BitVec.ofNat 64 n) (t.sreg (vcF w))).getD j 0))

/-- R125: each scalar and predicate operation puts its result on its way with the latency of the table. -/
def Obligations.ScalarAndPredicateResults : Prop :=
  (∀ (s : State) (k : Nat) (w : SlotWord) (b : BitVec 256), s.ready k .c w b → (s.tile k).predOk w = true →
      let t := s.tile k
      let gives := fun (lat : Nat) (v : W64) => (Host.Outcome.next ((s.withResult k lat (slotRank .c) (.sreg (fld w 37 33) v)).slotIssued k .c b) :
        Host.Outcome State Fault Refusal)
      (∀ r ∈ scalarRows, opOf w = r.op →
        Sys2Proof.Machine.exec (r.cmd k w) s = gives r.lat (r.f (t.sreg (fld w 32 28)) (t.sreg (fld w 27 23)))) ∧
      (opOf w = 0x19 → ∃ v, Sys2Proof.Machine.exec (.saddi k w) s = gives 1 v ∧
        v = t.sreg (fld w 32 28) + BitVec.ofInt 64 (signedOf 23 (fld w 22 0))) ∧
      (opOf w = 0x1A → ∃ v, Sys2Proof.Machine.exec (.smovi k w) s = gives 1 v ∧
        ∀ q, q < 4 → bitsOf v.toNat (16 * q + 15) (16 * q) =
          (if q = fld w 32 31 then fld w 15 0 else if flag w 30 then bitsOf (t.sreg (fld w 37 33)).toNat (16 * q + 15) (16 * q) else 0)) ∧
      (opOf w = 0x1B → Sys2Proof.Machine.exec (.smvlc k w) s = gives 1 ((t.lcReg (fld w 32 31)).setWidth 64))) ∧
  (∀ (s : State) (k : Nat) (w : SlotWord) (b : BitVec 256), s.ready k .c w b → (s.tile k).predOk w = true →
      let t := s.tile k
      let gives := fun (p : Bool) => (Host.Outcome.next ((s.withResult k 1 (slotRank .c) (.pred (fld w 37 35) p)).slotIssued k .c b) :
        Host.Outcome State Fault Refusal)
      let holds := fun (x y : W64) => match fld w 24 22 with
        | 0 => x == y | 1 => x != y | 2 => decide (x.toInt < y.toInt) | 3 => decide (y.toInt ≤ x.toInt)
        | 4 => decide (x < y) | _ => decide (y ≤ x)
      (opOf w = 0x20 → fld w 24 22 < 6 →
        Sys2Proof.Machine.exec (.pcmp k w) s = gives (holds (t.sreg (fld w 34 30)) (t.sreg (fld w 29 25)))) ∧
      (opOf w = 0x21 → fld w 24 22 < 6 →
        Sys2Proof.Machine.exec (.pcmpi k w) s = gives (holds (t.sreg (fld w 34 30)) (BitVec.ofInt 64 (signedOf 16 (fld w 15 0))))) ∧
      (opOf w = 0x22 → Sys2Proof.Machine.exec (.plc k w) s = gives (decide ((t.lcReg (fld w 34 33)).toNat = fld w 23 0))) ∧
      (opOf w = 0x23 → Sys2Proof.Machine.exec (.plog k w) s = gives (
        let x := t.predReg (fld w 34 32)
        let y := t.predReg (fld w 31 29)
        match fld w 28 27 with | 0 => x && y | 1 => x || y | 2 => Bool.xor x y | _ => x && !y)))

/-- R106: of the results due in the earliest cycle that reach one scalar register, one predicate register or one lane of a vector
register, the one that is last in the order of the slots (V, L, X, C, M, then the array, whose results rank after M's) prevails; one
that no due result reaches keeps its value.
R108: P0 reads 1.  The results of later cycles stay on their way. -/
def Obligations.ResultsReachTheirRegisters : Prop :=
  ∀ (s : State) (k d : Nat), (s.tile k).nextResult = some d → d ≤ (s.tile k).cyc → (s.tile k).hold = .free →
    let due := fun (r : Nat) (g : Target) => (⟨d, r, g⟩ : Pending) ∈ (s.tile k).results
    ∃ t : Tile, Sys2Proof.Machine.exec (.opResultWriteback k) s = .next (s.putTile k t) ∧
      (∀ i r v, r ≤ slotRank .m + 1 → due r (.sreg i v) → (∀ r' v', due r' (.sreg i v') → v' ≠ v → r' < r) → t.sreg i = v) ∧
      (∀ i, (∀ r v, ¬due r (.sreg i v)) → t.sreg i = (s.tile k).sreg i) ∧
      (∀ i r v, r ≤ slotRank .m + 1 → i ≠ 0 → i < 8 → due r (.pred i v) → (∀ r', due r' (.pred i (!v)) → r' < r) → t.predReg i = v) ∧
      (∀ i, i < 8 → (∀ r v, ¬due r (.pred i v)) → t.predReg i = (s.tile k).predReg i) ∧
      (∀ i r lanes v l, r ≤ slotRank .m + 1 → l < 64 → due r (.vreg i lanes v) → lanes.getLsbD l = true →
        (∀ r' lanes' v', due r' (.vreg i lanes' v') → lanes'.getLsbD l = true → laneOf v' l ≠ laneOf v l → r' < r) →
        laneOf (t.vreg i) l = laneOf v l) ∧
      (∀ i l, l < 64 → (∀ r lanes v, due r (.vreg i lanes v) → lanes.getLsbD l = false) →
        laneOf (t.vreg i) l = laneOf ((s.tile k).vreg i) l) ∧
      t.predReg 0 = true ∧
      t.results = (s.tile k).results.filter (fun p => decide (p.due ≠ d)) ∧
      t.acc = (s.tile k).acc ∧ t.larder = (s.tile k).larder ∧ t.lc = (s.tile k).lc ∧ t.pc = (s.tile k).pc

/-- R125, R126, R128, R129, R135: a control operation is what happens when its bundle ends; a LOOP takes the low 32 bits of its
count register, and a count of 0 is illegal in timed code only. -/
def Obligations.ControlOperations : Prop :=
  ∀ (s : State) (k : Nat) (w : SlotWord) (b : BitVec 256), s.ready k .c w b → (s.tile k).predOk w = true →
    let t := s.tile k
    let timed := t.bundleTimed b
    let gives := fun (c : Control) => (Host.Outcome.next ((s.setTile k { t with control := c }).slotIssued k .c b) :
      Host.Outcome State Fault Refusal)
    let illegal := (Host.Outcome.next ((s.modTile k Tile.illegal).slotIssued k .c b) : Host.Outcome State Fault Refusal)
    (opOf w = 0x01 →
      let n : BitVec 32 := (t.sreg (fld w 35 31)).setWidth 32
      Sys2Proof.Machine.exec (.loop k w) s = if timed = true ∧ n = 0 then illegal else gives (.loop (fld w 37 36) (fld w 30 19) n)) ∧
    (opOf w = 0x02 → Sys2Proof.Machine.exec (.dly k w) s = gives (.delay (fld w 15 0))) ∧
    (opOf w = 0x03 → Sys2Proof.Machine.exec (.bend k w) s = if t.elreri then illegal else gives .bend) ∧
    (opOf w = 0x04 → Sys2Proof.Machine.exec (.align k w) s =
      if t.elreri then illegal else gives (.align (t.sreg (fld w 35 31)).toNat)) ∧
    (opOf w = 0x06 → Sys2Proof.Machine.exec (.halt k w) s = gives .halt) ∧
    (opOf w = 0x07 → Sys2Proof.Machine.exec (.jmp k w) s = gives (.jump (fld w 23 0))) ∧
    (opOf w = 0x08 → Sys2Proof.Machine.exec (.br k w) s = if timed then illegal else gives (.jump (fld w 23 0)))

/-- R105, R126, R129: a slot that issues before the last of its bundle only joins the issued ones; and what a bundle's end does with its
control operation, in a tile with nothing in flight: the next bundle, the loop that begins or goes round, and what the tile's issue waits for
then: a delay's cycle, the next beat after a BEND, the plan beat of an ALIGN that has not begun, or a new start after a HALT.  After an ALIGN
whose plan beat has begun the tile raises TIMING_BREAK and issues on.  No other tile changes. -/
def Obligations.BundleEnd : Prop :=
  ∀ (s : State) (k : Nat) (b : BitVec 256),
    (∀ sl, (s.tile k).issued.length < 4 →
      s.slotIssued k sl b = s.setTile k { s.tile k with issued := sl :: (s.tile k).issued, cur := b } ∧
      ∀ j, j ≠ k → (s.slotIssued k sl b).tile j = s.tile j) ∧
    ((s.tile k).quiet = true → (s.tile k).events = [] → s.debug = false → (s.tile k).issued.length = 4 → (s.tile k).hold = .free →
    let t := s.tile k
    let begun := match s.ctxOfTile k with | some c => s.planBeats c | none => 0
    (∀ n, t.control = .align n → n < begun → t.loops = [] → ∃ u : Tile, s.slotIssued k .c b = s.putTile k u ∧ u.events = [.timingBreak] ∧
      u.issued = [] ∧ u.control = .none ∧ u.count = t.count + 1 ∧ u.pc = t.pc + 1 ∧ u.hold = .free ∧ u.cyc = t.cyc + 1 ∧ u.s = t.s ∧ u.v = t.v ∧
      u.larder = t.larder) ∧
    ((∀ n, t.control = .align n → begun ≤ n) →
    ∃ u : Tile, s.slotIssued k .c b = s.setTile k u ∧ u.issued = [] ∧ u.control = .none ∧ u.count = t.count + 1 ∧
      u.s = t.s ∧ u.v = t.v ∧ u.larder = t.larder ∧
      (∀ a, t.control = .jump a → u.pc = a ∧ u.lc = t.lc ∧ u.hold = .free ∧ u.cyc = t.cyc + 1) ∧
      (t.control = .none → t.loops = [] → u.pc = t.pc + 1 ∧ u.lc = t.lc ∧ u.hold = .free ∧ u.cyc = t.cyc + 1) ∧
      (∀ i body (n : BitVec 32), t.control = .loop i body n → n ≠ 0 → t.loops = [] →
        u.pc = t.pc + 1 ∧ u.lcReg i = n ∧ u.loops = [⟨i, t.pc, t.pc + body + 1⟩]) ∧
      (∀ i body, t.control = .loop i body 0 → t.loops = [] → u.pc = t.pc + body + 2 ∧ u.lcReg i = 0 ∧ u.loops = []) ∧
      (∀ l, t.control = .none → t.loops = [l] → l.last = t.pc →
        (1 < (t.lcReg l.lc).toNat → u.pc = l.head + 1 ∧ u.lcReg l.lc = t.lcReg l.lc - 1 ∧ u.loops = [l]) ∧
        ((t.lcReg l.lc).toNat ≤ 1 → u.pc = t.pc + 1 ∧ u.lcReg l.lc = 0 ∧ u.loops = [])) ∧
      (∀ d, t.control = .delay d → u.hold = .delay (t.cyc + 1 + (d + 1))) ∧
      (t.control = .bend → u.hold = .beat) ∧
      (∀ n, t.control = .align n → u.hold = .align n) ∧
      (t.control = .halt → u.hold = .halted)))

/-- R124, R130, R131, R132, R134: STEPM marks the beat, CFETCH starts the fill of a line, PINSET puts the pin mask on its way, and
ACHK compares its counter and takes what it consumes.
R129, R131: a delay that has run out lets the tile issue again; an untimed bundle that has stalled on its ACHK for 2^26 cycles
raises TIMING_BREAK and is to issue without effect. -/
def Obligations.MarksChecksAndWaits : Prop :=
  (∀ (s : State) (k : Nat) (w : SlotWord) (b : BitVec 256), s.ready k .c w b → (s.tile k).predOk w = true →
      let t := s.tile k
      (opOf w = 0x05 → s.stepmWrong k (fld w 15 0) = false →
        Sys2Proof.Machine.exec (.stepm k w) s = .next ((s.setTile k { t with stepm := t.stepm ++ [fld w 15 0] }).slotIssued k .c b)) ∧
      (opOf w = 0x09 → ∀ n base, t.code = some (n, base) → (t.sreg (fld w 31 27)).toNat / 64 * 64 < n →
        ∃ u, Sys2Proof.Machine.exec (.cfetch k w) s = .next ((s.setTile k u).slotIssued k .c b) ∧ u = { t with lines := u.lines } ∧
          mfind u.lines (fld w 37 32) =
            some { valid := false, filling := true, tag := (t.sreg (fld w 31 27)).toNat / 64 * 64, bundles := [] }) ∧
      (opOf w = 0x0A →
        Sys2Proof.Machine.exec (.pinset k w) s = .next ((s.withResult k 1 (slotRank .c) (.pin (t.sreg (fld w 31 27)))).slotIssued k .c b)) ∧
      (opOf w = 0x0B →
        let v : BitVec 32 := if flag w 32 then (t.sreg (fld w 31 27)).setWidth 32 else BitVec.ofNat 32 (fld w 15 0)
        ∃ u, Sys2Proof.Machine.exec (.achk k w) s = .next ((s.putTile k u).slotIssued k .c b) ∧
          u = { t with results := u.results, events := u.events } ∧
          (v ≤ t.acReg (fld w 37 34) → u.events = t.events ∧
            u.results = t.results ++ (if flag w 33 then [⟨t.cyc + 1, slotRank .c, .acSub (fld w 37 34) v⟩] else [])) ∧
          (t.acReg (fld w 37 34) < v → u.results = t.results ∧
            u.events = t.events ++ [if t.bound (fld w 37 34) then .linkLate else .timingBreak]))) ∧
  (∀ (s : State) (k : Nat),
      (∀ u, (s.tile k).hold = .delay u → u ≤ (s.tile k).cyc →
        Sys2Proof.Machine.exec (.dlyExpire k) s = .next (s.setTile k { s.tile k with hold := .free })) ∧
      (∀ u, (s.tile k).hold = .delay u → (s.tile k).cyc < u → Sys2Proof.Machine.exec (.dlyExpire k) s = .next s) ∧
      (∀ i b, (s.tile k).lookup = .hit i b → s.mayIssue k = true → (s.tile k).issued = [] → (s.tile k).bundleTimed b = false →
        (s.tile k).bundleIllegal b = false → opOf (slotOf b .c) = 0x0B → (s.tile k).predOk (slotOf b .c) = true →
        (s.tile k).achkVoid = false → (s.tile k).achkPasses (slotOf b .c) = false → 2 ^ 26 ≤ (s.tile k).stalled →
        ∃ t : Tile, Sys2Proof.Machine.exec (.achkStallTimeout k) s = .next (s.putTile k t) ∧ t.achkVoid = true ∧
          t.events = (s.tile k).events ++ [.timingBreak]))

/-- R70, R118: the larder accesses that LDS, STS, LDV and STV put on their way, at the base register or at base plus 8 × OFF, the
cycle each is made in and the register each delivers to, and the base register that POST moves; nothing else of the tile
changes until its bundle ends. -/
def Obligations.LarderLoadsAndStores : Prop :=
  ∀ (s : State) (k : Nat) (w : SlotWord) (b : BitVec 256), s.ready k .l w b → (s.tile k).predOk w = true → (s.tile k).elreri = false →
    let t := s.tile k
    let base := (t.sreg (fld w 32 28)).toNat
    let a := if flag w 0 then base else (base + 8 * fld w 27 12) % 2 ^ 64
    let n := 8 * (fld w 11 7 + 1)
    let post := if flag w 0 then
      [(⟨t.cyc + 1, slotRank .l, .sreg (fld w 32 28) (t.sreg (fld w 32 28) + BitVec.ofNat 64 (8 * fld w 27 12))⟩ : Pending)] else []
    let gives := fun (c : Instr) (u : Tile) => Sys2Proof.Machine.exec c s = .next ((s.setTile k u).slotIssued k .l b) ∧
      u = { t with accesses := u.accesses, results := t.results ++ post, seq := t.seq + 1 }
    a % 8 = 0 →
    (opOf w = 0x01 → a + 8 ≤ larderSize → ∀ flips, ∃ u, gives (.lds k w flips) u ∧
      u.accesses = t.accesses ++ [⟨t.cyc + 1, 3, t.seq, a, 8, false, [], flips, .sreg (fld w 37 33) (t.cyc + 3)⟩]) ∧
    (opOf w = 0x02 → a + 8 ≤ larderSize → ∃ u, gives (.sts k w) u ∧
      u.accesses = t.accesses ++ [⟨t.cyc + 2, 3, t.seq, a, 8, true, leBytes 8 (t.sreg (fld w 37 33)).toNat, [], .none⟩]) ∧
    (opOf w = 0x03 → a + n ≤ larderSize → ∀ flips, ∃ u l, gives (.ldv k w flips) u ∧ u.accesses = t.accesses ++ l ∧
      l.flatMap (fun x => (List.range x.len).map (fun i => x.addr + i)) = (List.range n).map (fun i => a + i) ∧
      ∀ x ∈ l, x.due = t.cyc + 1 ∧ x.prio = 3 ∧ x.order = t.seq ∧ x.write = false ∧ x.flips = flips ∧
        ∃ lanes, x.use = .vreg (fld w 37 33) (t.cyc + 3) ((x.addr - a) / 4) lanes) ∧
    (opOf w = 0x04 → a + n ≤ larderSize → ∃ u l, gives (.stv k w) u ∧ u.accesses = t.accesses ++ l ∧
      l.flatMap (fun x => (List.range x.len).map (fun i => x.addr + i)) = (List.range n).map (fun i => a + i) ∧
      l.flatMap (fun x => x.data) = leBytes n (t.vreg (fld w 37 33)).toNat ∧
      ∀ x ∈ l, x.due = t.cyc + 2 ∧ x.prio = 3 ∧ x.order = t.seq ∧ x.write = true ∧ x.use = .none)

/-- R43, R92, R118, R466: the store entries and larder accesses of ASAVE, ALOAD and AADD: entry i is read or written at its
cycle, at 512 bytes an entry. -/
def Obligations.StoreEntryMoves : Prop :=
  ∀ (s : State) (k : Nat) (w : SlotWord) (b : BitVec 256), s.ready k .l w b → (s.tile k).predOk w = true → (s.tile k).elreri = false →
    let t := s.tile k
    let a := (t.sreg (fld w 37 33)).toNat
    let cnt := fld w 23 15 + 1
    let e := fld w 32 24
    let post := if flag w 0 then
      [(⟨t.cyc + 1, slotRank .l, .sreg (fld w 37 33) (t.sreg (fld w 37 33) + BitVec.ofNat 64 (512 * cnt))⟩ : Pending)] else []
    let gives := fun (c : Instr) (u : Tile) => Sys2Proof.Machine.exec c s = .next ((s.setTile k u).slotIssued k .l b) ∧
      u = { t with accesses := u.accesses, accMoves := u.accMoves, results := t.results ++ post, seq := t.seq + 1 }
    a % 16 = 0 → a + 512 * cnt ≤ larderSize → e + fld w 23 15 ≤ 511 →
    (opOf w = 0x05 → ∀ ecc, ∃ u, gives (.asave k w ecc) u ∧ u.accesses = t.accesses ∧
      u.accMoves.map (fun m => (m.due, m.entry, m.save)) = t.accMoves.map (fun m => (m.due, m.entry, m.save)) ++
        (List.range cnt).map (fun i => (t.cyc + 1 + 2 * i, e + i, some (a + 512 * i)))) ∧
    (∀ add : Bool, opOf w = (if add then 0x07 else 0x06) → ∀ flips ecc, ∃ u,
      gives (if add then .aadd k w flips ecc else .aload k w flips) u ∧ u.accMoves = t.accMoves ∧
      u.accesses.map (fun x => (x.due, x.addr, x.len, x.write)) = t.accesses.map (fun x => (x.due, x.addr, x.len, x.write)) ++
        (List.range (2 * cnt)).map (fun j => (t.cyc + 1 + j, a + 256 * j, 256, false)) ∧
      ∀ i, i < cnt → ∃ x ∈ u.accesses, ∃ fl, x.use = .acc (e + i) add 0 (t.cyc + 4 + 2 * i) fl)

/-- R118, R119, R120, R212: a CRD puts a plan stream on its way; a CWR, an XSEND and an XHUB put a transfer on the crossing port,
which stays occupied for one cycle in every 128 bytes.  Where a CWR stands in the same bundle the X slot's transfer follows it, in
untimed code (the model's choice of log entry 56).
R119, R122, R123: an XCRATE in domain mode sends CNT + 1 crates whose sequence numbers rise by one modulo 2^16; an XBIND puts
a legal binding on its way. -/
def Obligations.CrossingCommands : Prop :=
  (∀ (s : State) (k : Nat) (w : SlotWord) (b : BitVec 256), (s.tile k).predOk w = true → (s.tile k).elreri = false →
      (s.tile k).portBusy = false →
      let t := s.tile k
      let gives := fun (sl : Slot) (c : Instr) (u : State) => Sys2Proof.Machine.exec c s = .next (u.slotIssued k sl b)
      let sent := fun (u : State) (kind : SendKind) (n start : Nat) =>
        (u.tile k).sends = t.sends ++ [⟨t.seq, kind, n, [], false⟩] ∧ (u.tile k).portFree = start + (n + 127) / 128 ∧
        (u.tile k).streams = t.streams ∧ (u.tile k).s = t.s ∧ (u.tile k).larder = t.larder
      let after := t.cyc + 1 + s.cwrCycles k
      let mayFollow := t.bundleTimed b = true → s.cwrCycles k = 0
      let n := 64 * (fld w 27 16 + 1)
      (s.ready k .l w b → (t.sreg (fld w 37 33)).toNat % 64 = 0 → (t.sreg (fld w 32 28)).toNat % 64 = 0 →
        (t.sreg (fld w 37 33)).toNat + n ≤ larderSize →
        (opOf w = 0x08 → ∃ u : State, gives .l (.crd k w) u ∧ (u.tile k).sends = t.sends ∧ (u.tile k).s = t.s ∧ (u.tile k).larder = t.larder ∧
          (u.tile k).streams = t.streams ++
            [⟨t.seq, (t.sreg (fld w 37 33)).toNat, (t.sreg (fld w 32 28)).toNat, n, fld w 15 12⟩]) ∧
        (opOf w = 0x09 → ∀ flips, ∃ u : State, gives .l (.cwr k w flips) u ∧
          sent u (.cellar (t.sreg (fld w 32 28)).toNat (fld w 15 12)) n (t.cyc + 1))) ∧
      (s.ready k .x w b → opOf w = 0x01 → s.xsendLegal k w = true → mayFollow → ∀ flips, ∃ u : State, gives .x (.xsend k w flips) u ∧
        sent u (.mesh (64 * bitsOf (t.sreg (fld w 27 23)).toNat 13 8 + bitsOf (t.sreg (fld w 27 23)).toNat 5 0)
          (t.sreg (fld w 32 28)).toNat (fld w 12 9)) (16 * (fld w 22 13 + 1)) after) ∧
      (s.ready k .x w b → opOf w = 0x03 → fld w 32 30 < 2 → (t.sreg (fld w 37 33)).toNat + 16 * (fld w 17 8 + 1) ≤ larderSize →
        mayFollow → ∀ flips, ∃ u : State, gives .x (.xhub k w flips) u ∧ sent u (.hub (fld w 32 30) (fld w 29 18)) (16 * (fld w 17 8 + 1)) after)) ∧
  (∀ (s : State) (k : Nat) (w : SlotWord) (b : BitVec 256), s.ready k .x w b → (s.tile k).predOk w = true →
      (s.tile k).elreri = false → (s.tile k).portBusy = false →
      let t := s.tile k
      let cnt := fld w 27 20
      (opOf w = 0x02 → s.domainMode = true → (t.sreg (fld w 37 33)).toNat % 8 = 0 →
        (t.sreg (fld w 37 33)).toNat + 40 * (cnt + 1) ≤ larderSize →
        (t.bundleTimed b = true → s.cwrCycles k = 0) → ∀ flips,
        ∃ u : State, Sys2Proof.Machine.exec (.xcrate k w flips) s = .next (u.slotIssued k .x b) ∧
          (u.tile k).sends.length = t.sends.length + (cnt + 1) ∧ (u.tile k).portFree = t.cyc + 1 + s.cwrCycles k + (cnt + 1) ∧
          ∀ i, i ≤ cnt → ∃ h : W64,
            (u.tile k).sends[t.sends.length + i]? = some ⟨t.seq + i, .crate h, 40, [], false⟩ ∧
            bitsOf h.toNat 15 0 = (bitsOf (t.sreg (fld w 32 28)).toNat 15 0 + i) % 2 ^ 16 ∧
            h.getLsbD 33 = (flag w 19 && decide (i = cnt)) ∧ h.getLsbD 32 = false) ∧
      (opOf w = 0x04 → bindLegal (t.sreg (fld w 31 27)) = true →
        Sys2Proof.Machine.exec (.xbind k w) s =
          .next ((s.withResult k 1 (slotRank .x) (.bind (fld w 37 32) (t.sreg (fld w 31 27)))).slotIssued k .x b)))

/-- R35, R38, R45, R113: an MMUL that runs puts its job in the array, filled from its issue on and streaming from
c + F + 3; an MCFG puts its configuration on its way. -/
def Obligations.MatrixIssue : Prop :=
  ∀ (s : State) (k : Nat) (w : SlotWord) (b : BitVec 256), s.ready k .m w b → (s.tile k).predOk w = true →
    let t := s.tile k
    (opOf w = 0x01 → fld w 19 14 < 36 → t.mmulRuns w = true → ∀ flips, ∃ u : State, ∃ c n, ∃ j : Job,
      Sys2Proof.Machine.exec (.mmul k w flips) s = .next (u.slotIssued k .m b) ∧
      MatCfg.ofWord (t.mcReg (fld w 37 36)) = some c ∧ t.nsrc w = some n ∧
      (u.tile k).jobs = t.jobs ++ [j] ∧ j.issue = t.cyc ∧ j.s0 = t.cyc + (c.blockBytes + 127) / 128 + 3 ∧ j.n = n ∧
      j.base = fld w 13 5 ∧ j.fillAddr = (t.sreg (fld w 35 31)).toNat / 16 * 16 ∧
      j.strmAddr = (t.sreg (fld w 30 26)).toNat / 16 * 16 ∧ j.started = false ∧ j.outs = [] ∧
      (u.tile k).shadow = t.shadow ∧ (u.tile k).active = t.active ∧ (u.tile k).acc = t.acc) ∧
    (opOf w = 0x02 → Sys2Proof.Machine.exec (.mcfg k w) s =
      .next ((s.withResult k 1 (slotRank .m) (.mcfg (fld w 37 36) (t.sreg (fld w 35 31)))).slotIssued k .m b))

/-- R36, R40, R41, R42, R45, R51, R115: the array's events, whatever else the tile holds; where its issue is held, its held cycles pass
after the event (R129).  At S0 the shadow and active registers swap and the stream starts; a vector's compare moves its job on by one
vector, poisons the tile where the checksum disagrees or the classes clash, and puts the entry that its mode makes of the exact results
on its way to the store, but none in direct mode; a rounded row goes to the larder or to a vector register. -/
def Obligations.ArrayEvents : Prop :=
  ∀ (s : State) (k : Nat) (j : Job) (c : MatCfg) (pre post : List Job),
    let t := s.tile k
    t.jobs = pre ++ j :: post → MatCfg.ofWord j.cfg = some c →
    let gives := fun (i : Instr) (u : Tile) => Sys2Proof.Machine.exec i s = .next (s.putTile k (u.settle (s.tileLimit k)))
    (j.started = false → j.s0 ≤ t.cyc → (∀ x ∈ pre, x.started = true ∨ t.cyc < x.s0) →
      ∃ u : Tile, gives (.arrayStreamStart k) u ∧ u = { t with active := t.shadow, shadow := t.active, jobs := u.jobs } ∧
        u.jobs = t.jobs.map (fun x => if x.id = j.id then { x with started := true, block := t.shadow } else x)) ∧
    (∀ (faults : List RowFault) (chk : Option (BitVec 120)) (ecc : List (Nat × BitVec 120)) (vec : List Byte),
      j.started = true → j.nextCmp < j.n → j.s0 + j.nextCmp * c.vecCycles + c.cmpOff ≤ t.cyc →
      (∀ x ∈ pre, ∀ d, MatCfg.ofWord x.cfg = some d →
        x.started = false ∨ x.n ≤ x.nextCmp ∨ t.cyc < x.s0 + x.nextCmp * d.vecCycles + d.cmpOff) →
      j.vecs.find? (fun v => v.1 == j.nextCmp) = some (j.nextCmp, vec) →
      let o := arrayCycle c j.block vec (faults.map (fun f => (f.row, ⟨⟨f.x, f.special, f.inexact, f.range⟩, f.cmp, f.mag⟩))) chk
      let e := (mget {} t.acc (j.base + j.nextCmp) : AccEntry).update c.mode (decide (c.group = .bf16)) c.anchor o.lanes
      ∃ u : Tile, gives (.arrayVectorCompare k faults chk ecc) u ∧ u.acc = t.acc ∧ u.larder = t.larder ∧ u.s = t.s ∧ u.v = t.v ∧
        (o.mismatch = true → u.poison = true ∧ .mismatch ∈ u.events) ∧ (o.unchecked = true → .unchecked ∈ u.events) ∧
        (c.mode = .direct → u.accWrites = t.accWrites) ∧
        (c.mode ≠ .direct → ∃ w, u.accWrites = t.accWrites ++ [(j.base + j.nextCmp, w)] ∧ (c.mode = .clear ∨ ecc = [] → w = e.1)) ∧
        (ecc = [] → u.poison = (t.poison || o.mismatch || e.2)) ∧
        (j.nextCmp + 1 < j.n → ∃ x ∈ u.jobs, x.id = j.id ∧ x.nextCmp = j.nextCmp + 1 ∧ x.n = j.n ∧
          (c.delivers = false → x.outs = j.outs) ∧
          (c.delivers = true → ∃ l, x.outs = j.outs ++ [⟨j.nextCmp, l, decide (c.group = .bf16)⟩] ∧ (c.mode = .direct → l = o.lanes)))) ∧
    (∀ o rest, j.outs = o :: rest → j.s0 + o.n * c.vecCycles + c.outOff ≤ t.cyc →
      (∀ x ∈ pre, ∀ d p ps, MatCfg.ofWord x.cfg = some d → x.outs = p :: ps → t.cyc < x.s0 + p.n * d.vecCycles + d.outOff) →
      ∃ u : Tile, gives (.arrayResultWrite k) u ∧ u.acc = t.acc ∧ u.larder = t.larder ∧ u.poison = t.poison ∧
        (c.vdst = false → u.results = t.results ∧ ∃ x : Access, u.accesses = t.accesses ++ [x] ∧ x.write = true ∧ x.due = t.cyc ∧
          x.addr = j.dst + o.n * c.outBytes ∧ x.data = outRow c o.fp32 o.lanes) ∧
        (c.vdst = true → u.accesses = t.accesses ∧ ∃ lanes v, u.results = t.results ++ [⟨t.cyc, 5, .vreg (j.dst % 32) lanes v⟩]))

/-- R73, R119, R121, R124, R164, R171: a mesh transfer whose bytes have been read, and whose way lies over running regions, reaches the
receiving tile, with its poison flag, and its last bytes will count in the arrival counter named; the transfer is no longer the sender's.
Where the receiving tile's region is gated, the landing of the last link takes as many chunks as it has room for, and the rest of the transfer
stays on its way.
R69, R73, R121, R164: a work cycle of a tile in which nothing else happens writes its oldest received chunk, and the chunk that ends a
transfer counts in its arrival counter.  A crate's chunk goes to the ring place of the binding that its stream matches in that cycle, whose
counter counts, and one that matches none is discarded and counted (R119, R123).  (A property of the cycle that the commands pass.)
R73, R119, R123, R171, R245: the first plan crate whose way is free leaves the inbox.  In a running region it reaches its tile: one that
issues holds it for its work cycles, and in one without a program, or whose issue is held with nothing in flight, it stands at once at the ring
place of the lowest-numbered valid binding of its stream, whose counter counts one.  A gated region's landing takes it, and one for a region that
is not there is counted in LINK_DISC_UNBOUND.  (Which crates wait is the model's choice: log entry 76.)
R118, R164, R201, R202, R208, R212: in a running region a plan stream out of the cellar delivers its bytes to its tile, with the poison flag
exactly if a transfer of it is marked; one into the cellar ends with its bytes in the cellar; either way the arrival counter is to count one, and
no other byte of the cellar changes.
R75, R132, R202: in a work cycle of its region a line being filled becomes valid with its 64 bundles from the cellar; poisoned data
poisons the tile. -/
def Obligations.ArrivalsAtTiles : Prop :=
  (∀ (s : State) (k id d addr ctr : Nat) (x : Transfer), (s.tile k).sends.find? (fun y => y.id == id) = some x →
      x.kind = .mesh d addr ctr → x.len ≤ x.data.length → (s.tile k).events = [] → s.passes (meshRoute k d) (regionOfTile d) = true →
      (s.regionRuns (regionOfTile d) = true → (s.tile d).events = [] → d ≠ k →
        ∃ t : State, Sys2Proof.Machine.exec (.meshTransferArrival k id) s = .next t ∧
        s.receives t d (s.tile d) addr x.data x.poison (.count ctr) ∧
        (t.tile k).sends = (s.tile k).sends.filter (fun y => y.id != id) ∧ (t.tile k).larder = (s.tile k).larder ∧
        (∀ j, j ≠ k → j ≠ d → t.tile j = s.tile j) ∧ t.mem = s.mem) ∧
      (∀ key, s.regionRuns (regionOfTile d) = false → meshLanding k d = some key →
        ∃ t : State, ∃ cs, Sys2Proof.Machine.exec (.meshTransferArrival k id) s = .next t ∧ chunked cs addr x.data x.poison (.count ctr) ∧
        let n := min cs.length (16 - (s.landing key).length)
        t.landing key = s.landing key ++ (cs.take n).map (fun c => ⟨d, c⟩) ∧
        (t.tile k).sends = (if n = cs.length then (s.tile k).sends.filter (fun y => y.id != id)
          else (s.tile k).sends.map (fun y => if y.id = id then
            { y with kind := .mesh d (addr + 128 * n) ctr, len := y.len - 128 * n, data := y.data.drop (128 * n) } else y)) ∧
        (∀ j, j ≠ k → t.tile j = s.tile j) ∧ t.mem = s.mem ∧ t.regs = s.regs)) ∧
  (∀ (t : Tile) (x : Chunk) (rest : List Chunk), t.recv = x :: rest → t.accesses = [] → t.accMoves = [] → t.jobs = [] → t.accWrites = [] →
      let u := t.passCycle
      let written := fun (at_ : Nat) => u.poison = (t.poison || x.poison) ∧ u.events = t.events ∧
        ∀ a, readByte u.larder a = if at_ ≤ a ∧ a < at_ + x.data.length then x.data.getD (a - at_) 0 else readByte t.larder a
      u.recv = rest ∧ u.cyc = t.cyc + 1 ∧ u.s = t.s ∧ u.v = t.v ∧
      (∀ c, x.done = .count c ∨ (∃ id, x.done = .stream id c) → written x.addr ∧ u.acReg c = t.acReg c + 1 ∧ ∀ i, i ≠ c → u.acReg i = t.acReg i) ∧
      (x.done = .more → written x.addr ∧ ∀ i, u.acReg i = t.acReg i) ∧
      (∀ stream seq, x.done = .crate stream seq →
        (∀ i, t.binds stream i → written (ringPlace (mget 0 t.bind i) seq) ∧
          ∀ c, u.acReg c = t.acReg c + if c = getBits (mget 0 t.bind i) 15 12 then 1 else 0) ∧
        ((∀ i, ¬t.binds stream i) → u.events = t.events ++ [.unbound] ∧ u.larder = t.larder ∧ u.poison = t.poison ∧ u.ac = t.ac))) ∧
  (∀ (s : State) (pre rest : List (Nat × Crate)) (p : Nat) (c : Crate), s.link.inbox = pre ++ (p, c) :: rest →
      (∀ x ∈ pre, s.crateMoves x.1 x.2 = false) → s.crateMoves p c = true →
      let k := (c.region / 8 * 8 + c.tileIn / 8) * 64 + c.region % 8 * 8 + c.tileIn % 8
      let v := s.tile k
      ∃ t : State, Sys2Proof.Machine.exec .crateReceive s = .next t ∧ t.link.inbox = pre ++ rest ∧ (∀ j, j ≠ k → t.tile j = s.tile j) ∧
        t.mem = s.mem ∧
        (s.enabled c.region = true → s.regionRuns c.region = true → v.events = [] →
          (v.code.isSome = true ∧ v.hold = .free → t.tile k = { v with recv := v.recv ++ [⟨0, c.data, c.poison, .crate c.stream c.seq⟩] }) ∧
          (v.recv = [] → v.code = none ∨ (v.hold ≠ .free ∧ v.quiet = true) → ∀ i, v.binds c.stream i →
            let at_ := ringPlace (mget 0 v.bind i) c.seq
            (t.tile k).recv = [] ∧ (t.tile k).poison = (v.poison || c.poison) ∧ (t.tile k).hold = v.hold ∧
            (∀ a, readByte (t.tile k).larder a = if at_ ≤ a ∧ a < at_ + c.data.length then c.data.getD (a - at_) 0 else readByte v.larder a) ∧
            (∀ n, (t.tile k).acReg n = v.acReg n + if n = getBits (mget 0 v.bind i) 15 12 then 1 else 0) ∧ t.regs = s.regs)) ∧
        (s.enabled c.region = true → s.regionRuns c.region = false → t.tile k = v ∧ t.regs = s.regs ∧
          ∀ key, crateLanding p c = some key → t.landing key = s.landing key ++ [⟨k, ⟨0, c.data, c.poison, .crate c.stream c.seq⟩⟩]) ∧
        (s.enabled c.region = false → t.tile k = v ∧ t.field 0 0x40018 47 0 = min (s.field 0 0x40018 47 0 + 1) (2 ^ 48 - 1))) ∧
  (∀ (s : State) (k id ad : Nat), (s.tile k).events = [] → s.regionRuns (regionOfTile k) = true →
      (∀ x : InStream, (s.tile k).streams.find? (fun y => y.id == id) = some x →
        s.checkExtent (s.ctxOfTile k) x.cel x.len = .ok ad →
        ∃ t : State, Sys2Proof.Machine.exec (.cellarStreamDone k id []) s = .next t ∧
          s.receives t k { s.tile k with streams := (s.tile k).streams.filter (fun y => y.id != id) } x.lar (readBytes s.mem.cellar ad x.len)
            ((transfersOf ad x.len).any s.marked) (.stream id x.ctr) ∧
          (t.tile k).streams = (s.tile k).streams.filter (fun y => y.id != id) ∧ t.mem = s.mem) ∧
      (∀ (x : Transfer) (cel ctr : Nat), (s.tile k).streams.find? (fun y => y.id == id) = none →
        (s.tile k).sends.find? (fun y => y.id == id) = some x → x.kind = .cellar cel ctr → x.len = x.data.length →
        s.checkExtent (s.ctxOfTile k) cel x.len = .ok ad →
        ∃ t : State, Sys2Proof.Machine.exec (.cellarStreamDone k id []) s = .next t ∧
          s.receives t k { s.tile k with sends := (s.tile k).sends.filter (fun y => y.id != id) } 0 [] false (.stream id ctr) ∧
          (∀ a, readByte t.mem.cellar a = if ad ≤ a ∧ a < ad + x.len then x.data.getD (a - ad) 0 else readByte s.mem.cellar a) ∧
          (∀ n, ad ≤ 64 * n → 64 * n + 64 ≤ ad + x.len → t.marked n = x.poison) ∧
          (t.tile k).sends = (s.tile k).sends.filter (fun y => y.id != id))) ∧
  (∀ (s : State) (k line ad n base : Nat) (l : Line), (s.tile k).events = [] → mfind (s.tile k).lines line = some l → l.filling = true →
      s.regionRuns (regionOfTile k) = true →
      (s.tile k).code = some (n, base) → s.checkExtent (s.ctxOfTile k) (base + 32 * l.tag) 2048 = .ok ad →
      ∃ t : State, ∃ l', Sys2Proof.Machine.exec (.icacheLineFillDone k line []) s = .next t ∧ mfind (t.tile k).lines line = some l' ∧
        l'.valid = true ∧ l'.filling = false ∧ l'.tag = l.tag ∧
        (∀ i, i < 64 → mget 0 l'.bundles i = BitVec.ofNat 256 (readNat s.mem.cellar (ad + 32 * i) 32)) ∧
        (t.tile k).poison = ((s.tile k).poison || (transfersOf ad 2048).any s.marked) ∧ (t.tile k).larder = (s.tile k).larder ∧
        (t.tile k).pc = (s.tile k).pc ∧ t.mem = s.mem ∧ t.regs = s.regs)

/-- R201, R204, R211, R185: a page's copy ends with the markers of what was uncorrectable in it, which counts for its site; a device that runs
hot is shown and asks for doubled refresh, and its end is shown; refresh changes no data. -/
def Obligations.CellarEvents : Prop :=
  ∀ (s : State) (site page j : Nat) (fixed bad : List Nat),
    (s.mem.copies.contains ⟨site, page⟩ = true → ∃ t : State, Sys2Proof.Machine.exec (.pageRedirect site page fixed bad) s = .next t ∧
      PageCopy.mk site page ∉ t.mem.copies ∧ (∀ c ∈ s.mem.copies, c ≠ ⟨site, page⟩ → c ∈ t.mem.copies) ∧ t.mem.cellar = s.mem.cellar ∧
      (∀ n, t.marked n = (s.marked n || bad.any (fun i => decide (i < 64) && n == s.cellarPage site page * 64 + i))) ∧ t.tiles = s.tiles ∧
      (fixed = [] → bad = [] → t.regs = s.regs) ∧
      (∀ i, i < 64 → fixed = [] → bad = [i] →
        let sue := 0x50808 + 32 * (s.placePage (s.cellarPage site page)).1
        t.field 0 sue 31 0 = min (s.field 0 sue 31 0 + 1) (2 ^ 32 - 1))) ∧
    (s.sites.contains site = true → (s.site site).hot = false → ∃ t : State, Sys2Proof.Machine.exec (.cellarHot site) s = .next t ∧
      (t.site site).hot = true ∧ t.field 0 (0x50810 + 32 * site) 14 14 = 1 ∧ (∀ f ∈ s.functions, t.field f 0x50030 5 5 = 1) ∧
      t.mem.cellar = s.mem.cellar ∧ t.tiles = s.tiles) ∧
    ((s.site site).hot = true → ∃ t : State, Sys2Proof.Machine.exec (.doubledRefreshEnd site) s = .next t ∧
      (t.site site).hot = false ∧ t.field 0 (0x50810 + 32 * site) 14 14 = 0 ∧ t.mem.cellar = s.mem.cellar) ∧
    (∀ w, w = (if s.sites.any (fun i => (s.site i).hot) then 896 else 1792) → s.clk.locked = true → j * w + 111 < 2621440 →
      ∃ t : State, Sys2Proof.Machine.exec (.refreshWindow false j) s = .next t ∧
        t.clk.tick = max s.clk.tick (s.clk.frameStart + w * j) ∧ t.mem = s.mem ∧ t.tiles = s.tiles ∧ t.regs = s.regs) ∧
    (s.clk.locked = true → ∃ t : State, Sys2Proof.Machine.exec (.refreshWindow true j) s = .next t ∧
        t.clk.tick = max s.clk.tick (s.clk.frameStart + 2617344) ∧ t.mem = s.mem ∧ t.tiles = s.tiles ∧ t.regs = s.regs)

/-- R141, R142, R143, R144, R145: halts, stepping and peeks of a halt scope.  DBG_BEAT names the plan beat of the matching tile's plan; that it
shows BEAT_PLAN's beat after a halt with another cause is the model's choice (log entry 75). -/
def Obligations.DebugCommands : Prop :=
  ∀ (s : State) (u : Nat), u < 8 →
    let x := s.unit u
    (∀ h, x.haltPend = some h → x.inBeat = false → h.cause < 16 → h.unit < 8 → h.tile < 4096 → h.bundle < 2 ^ 24 →
      ∃ t : State, Sys2Proof.Machine.exec (.debugHalt u) s = .next t ∧
        (t.unit u).halted = true ∧ (t.unit u).haltPend = none ∧ (t.unit u).resume = none ∧
        t.field u 0x70008 63 63 = 1 ∧ t.field u 0x70008 3 0 = h.cause ∧ t.field u 0x70008 6 4 = h.unit ∧
        (h.cause = 2 → t.field u 0x70008 12 7 = h.tile % 64 ∧ t.field u 0x70008 18 13 = h.tile / 64 ∧ t.field u 0x70008 42 19 = h.bundle) ∧
        (∀ c, h.cause = 2 → s.ctxOfTile h.tile = some c → t.reg u 0x70010 = BitVec.ofNat 64 (s.planBeat c)) ∧
        (h.cause ≠ 2 → t.reg u 0x70010 = BitVec.ofNat 64 x.planBeat) ∧ t.tiles = s.tiles ∧ t.mem = s.mem) ∧
    (s.debug = true → s.functions.contains u = true → x.halted = false → x.haltPend = none →
      ∃ t : State, Sys2Proof.Machine.exec (.dbgHaltReq u) s = .next t ∧ (t.unit u).haltPend = some ⟨1, 0, 0, 0, s.clk.tick, 0⟩ ∧
        t.tiles = s.tiles ∧
        t.regs = s.regs) ∧
    (s.debug = true → x.halted = true → ∃ t : State, Sys2Proof.Machine.exec (.dbgResume u) s = .next t ∧
      (t.unit u).halted = false ∧ (t.unit u).resume = some false ∧ (∀ q, q < 64 → (t.queue u q).held = false) ∧
      (∀ f q, f ≠ u → q < 64 → t.queue f q = s.queue f q) ∧ t.tiles = s.tiles ∧ t.regs = s.regs) ∧
    (s.debug = true → x.halted = true → ∃ t : State, Sys2Proof.Machine.exec (.dbgStep u) s = .next t ∧
      (t.unit u).resume = some true ∧ (t.unit u).halted = true ∧ t.tiles = s.tiles ∧ t.regs = s.regs) ∧
    (∀ v : W64, s.debug = true → x.halted = true → v.getLsbD 63 = true → ∃ t : State, Sys2Proof.Machine.exec (.dbgPeek u v) s = .next t ∧
      (t.unit u).peek = true ∧ t.field u 0x70300 47 0 = getBits v 47 0 ∧ t.field u 0x70300 62 62 = 0 ∧ t.tiles = s.tiles) ∧
    (∀ k w, x.peek = true → x.halted = true → k = 64 * s.field u 0x70300 11 6 + s.field u 0x70300 5 0 → k < 4096 → s.unitOf (regionOfTile k) = u →
      (s.tile k).peekWord (s.field u 0x70300 15 12) (s.field u 0x70300 47 16) = some w →
      (s.tile k).events = [] →
      ∃ t : State, Sys2Proof.Machine.exec (.dbgPeekDone u [] []) s = .next t ∧ t.reg u 0x70308 = w ∧ t.field u 0x70300 62 62 = 1 ∧
        (t.unit u).peek = false ∧ (∀ j, t.tile j = s.tile j) ∧ t.mem = s.mem)

/-- R158, R186, R187, R188: a frame starts on the counted position, with the mark acquired by the second edge in its place and lost
without one; a lost reference holds the frequency, and a new lock starts without the mark. -/
def Obligations.FramesAndMarks : Prop :=
  ∀ (s : State) (pos : Nat), s.clk.locked = true →
    (s.clk.holdover = false → (∀ p ∈ s.link.ports, p.2.foldAt = none) →
      (∃ t : State, Sys2Proof.Machine.exec (.frameStart true) s = .next t ∧ t.clk.frame = min (s.clk.frame + 1) (2 ^ 64 - 1) ∧
        t.clk.frameStart = s.clk.frameStart + 2621440 ∧ t.clk.marksSeen = s.clk.marksSeen + 1 ∧
        t.clk.markAcq = (s.clk.markAcq || decide (1 ≤ s.clk.marksSeen)) ∧ t.tiles = s.tiles ∧ t.mem = s.mem) ∧
      (∃ t : State, Sys2Proof.Machine.exec (.frameStart false) s = .next t ∧ t.clk.frame = min (s.clk.frame + 1) (2 ^ 64 - 1) ∧
        t.clk.frameStart = s.clk.frameStart + 2621440 ∧ t.clk.marksSeen = 0 ∧ t.clk.markAcq = s.clk.markAcq ∧
        (s.clk.markAcq = true → (∀ f ∈ s.functions, t.field f 0x30008 5 5 = 1) ∧
          t.field 0 0x30050 47 16 = min (s.field 0 0x30050 47 16 + 1) (2 ^ 32 - 1)))) ∧
    (s.clk.holdover = false → 1 < pos → pos < 2621439 →
      (s.clk.markAcq = false → (∀ p n f, s.clk.displaced = some (p, n, f) → p ≠ pos ∨ f + 1 ≠ s.clk.frame) →
        ∃ t : State, Sys2Proof.Machine.exec (.displacedMark pos) s = .next t ∧ t.clk.displaced = some (pos, 1, s.clk.frame) ∧
        t.clk.frame = s.clk.frame ∧ t.clk.frameStart = s.clk.frameStart ∧ t.clk.markAcq = false) ∧
      (s.clk.markAcq = false → ∀ n f, s.clk.displaced = some (pos, n, f) → f + 1 = s.clk.frame → 1 ≤ n →
        (∀ p ∈ s.link.ports, p.2.foldAt = none) →
        ∃ t : State, Sys2Proof.Machine.exec (.displacedMark pos) s = .next t ∧ t.clk.markAcq = true ∧
        t.clk.displaced = none ∧ t.clk.frameStart = s.clk.frameStart + pos) ∧
      (s.clk.markAcq = true → ∀ p n f, s.clk.displaced = some (p, n, f) → (∀ p ∈ s.link.ports, p.2.foldAt = none) →
        ∃ t : State, Sys2Proof.Machine.exec (.displacedMark pos) s = .next t ∧ (∀ f ∈ s.functions, t.field f 0x30008 5 5 = 1) ∧
        (p = pos → 2 ≤ n → t.clk.displaced = none ∧ t.clk.frameStart = s.clk.frameStart + pos) ∧
        (p ≠ pos → t.clk.displaced = some (pos, 1, s.clk.frame) ∧ t.clk.frameStart = s.clk.frameStart) ∧
        (p = pos → n < 2 → t.clk.displaced = some (pos, n + 1, s.clk.frame) ∧ t.clk.frameStart = s.clk.frameStart))) ∧
    (s.clk.holdover = false → ∃ t : State, Sys2Proof.Machine.exec .refLost s = .next t ∧ t.clk.holdover = true ∧ t.clk.markAcq = false ∧
      (∀ f ∈ s.functions, t.field f 0x30008 4 4 = 1) ∧ t.tiles = s.tiles ∧ t.mem = s.mem) ∧
    (s.clk.holdover = true → ∃ t : State, Sys2Proof.Machine.exec .refRelock s = .next t ∧ t.clk.holdover = false ∧ t.clk.markAcq = false ∧
      t.clk.marksSeen = 0 ∧ t.regs = s.regs ∧ t.tiles = s.tiles ∧ t.mem = s.mem)

/-- R160, R161, R162, R163, R173, R174, R176: slot boundaries and landing beats of a slip unit.  Where no plan runs nothing but the slot
moves on.  A plan that nothing holds starts its next plan beat at a slot boundary, in every region of the unit, fused ones among them,
and after the end of a plan beat that is no step's last; a unit of which a region is late slips instead and owes a beat, and its regions
that are complete stay gated; a landing beat starts a plan beat only to work off that debt. -/
def Obligations.SlotBoundaries : Prop :=
  ∀ (s : State) (u : Nat), s.clk.locked = true → s.units.contains u = true → (∀ c ∈ s.ctxsOf u, (s.ctx c).waits = []) →
    let x := s.unit u
    let slot := x.nextSlot + 1 < s.slotsPerFrame u
    let landing := x.nextSlot + 1 = s.slotsPerFrame u
    let calm := x.breaks = [] ∧ x.stopAsked = false ∧ x.stopped = false ∧ s.mem.staging = [] ∧
      (∀ c ∈ s.running u, (s.ctx c).destroying = none ∧ (s.ctx c).step.endDue = none)
    let runs := s.active u ≠ [] ∧ x.halted = false ∧ x.haltPend = none ∧ calm
    let begins := fun (t : State) => (t.unit u).started = x.started + 1 ∧ (t.unit u).inBeat = true ∧ (t.unit u).slipped = false ∧
      ∀ r, r < 64 → s.unitOf r = u → (t.region r).stretch = 0 ∧ (t.region r).done = false
    (s.running u = [] → x.inBeat = false → x.breaks = [] → x.stopAsked = false →
      (slot → ∃ t : State, Sys2Proof.Machine.exec (.slotBoundary u) s = .next t ∧
        t.unit u = { x with nextSlot := x.nextSlot + 1, landing := false } ∧
        t.clk.tick = max s.clk.tick (s.nextBoundary u) ∧ t.tiles = s.tiles ∧ t.regs = s.regs ∧ t.ctxs = s.ctxs ∧ t.mem = s.mem) ∧
      (landing → ∃ t : State, Sys2Proof.Machine.exec (.landingBeatStart u) s = .next t ∧
        t.unit u = { x with nextSlot := x.nextSlot + 1, landing := true } ∧
        t.clk.tick = max s.clk.tick (s.nextBoundary u) ∧ t.tiles = s.tiles ∧ t.regs = s.regs ∧ t.ctxs = s.ctxs ∧ t.mem = s.mem)) ∧
    (runs → x.inBeat = false →
      (slot → ∃ t : State, Sys2Proof.Machine.exec (.slotBoundary u) s = .next t ∧ begins t ∧
        (t.unit u).nextSlot = x.nextSlot + 1 ∧ (t.unit u).debt = x.debt) ∧
      (landing → x.debt = 0 → ∃ t : State, Sys2Proof.Machine.exec (.landingBeatStart u) s = .next t ∧ (t.unit u).started = x.started ∧
        (t.unit u).inBeat = false ∧ (t.unit u).landing = true ∧ t.tiles = s.tiles) ∧
      (landing → x.resume = none → ∀ n, x.debt = n + 1 → s.domainMode = false ∨ n = 0 ∨ s.onlyElreri u = true →
        ∃ t : State, Sys2Proof.Machine.exec (.landingBeatStart u) s = .next t ∧ begins t ∧ (t.unit u).debt = n ∧ t.field u 0x30008 1 1 = 1)) ∧
    (runs → x.inBeat = true → slot →
      (∀ c ∈ s.active u, ∃ p, (s.ctx c).plan = some p ∧ p.elreri = false ∧
        s.planBeat c % p.stepBeats ≠ p.stepBeats - (p.engines.map (·.boundary)).headD 1 - 1) →
      ((∀ r, r < 64 → s.unitOf r = u → s.regionComplete r = true) →
        ∃ t : State, Sys2Proof.Machine.exec (.slotBoundary u) s = .next t ∧ begins t ∧ (t.unit u).debt = x.debt) ∧
      (∀ q, q < 64 → s.unitOf q = u → s.regionComplete q = false → s.intolerant u = false → x.debt + 1 < 15 →
        ∃ t : State, Sys2Proof.Machine.exec (.slotBoundary u) s = .next t ∧ (t.unit u).started = x.started ∧ (t.unit u).inBeat = true ∧
          (t.unit u).debt = x.debt + 1 ∧ (t.unit u).slipped = true ∧ t.field u 0x30008 0 0 = 1 ∧
          (∀ r, r < 64 → s.unitOf r = u → (t.region r).done = s.regionComplete r) ∧ t.tiles = s.tiles)) ∧
    (x.stopAsked = true → x.breaks = [] → x.inBeat = false → s.running u = [] → s.dom = none → s.faults.coreFault = false →
      (slot → ∃ t : State, Sys2Proof.Machine.exec (.slotBoundary u) s = .next t ∧ (t.unit u).stopped = true ∧ (t.unit u).stopAsked = false ∧
        (t.unit u).started = x.started))

/-- R163, R164, R166, R167, R168, R169, R191: a region whose stretch is within the budget and whose tiles have run all their work cycles
completes; one whose tiles have finished and whose routers are empty gates early; the stretch of a running region grows by the larger of
severity and sympathy, for a fused region by sympathy alone; and beat values written while no plan holds them wait for a frame start and
come into force there.
R182, R183: an OP_CHANGE in the named frame: the divider changes, every function shows it, and its descriptor completes with OK. -/
def Obligations.BeatValuesAndOperatingPoints : Prop :=
  (∀ (s : State) (r u : Nat),
      (s.regionRuns r = true → (s.region r).stretch ≤ s.div * (s.unit (s.unitOf r)).slack → (tilesOfRegion r).all s.tileEnded = true →
        Sys2Proof.Machine.exec (.workCyclesDone r) s = .next (s.setRegion r { s.region r with done := true })) ∧
      (s.div * (s.unit (s.unitOf r)).slack < (s.region r).stretch → (s.unit (s.unitOf r)).slipped = false →
        Sys2Proof.Machine.exec (.workCyclesDone r) s = .next s) ∧
      (s.regionRuns r = true → s.enabled r = true → (s.region r).fenced = false →
        (tilesOfRegion r).all s.tileFinished = true → s.tiles.all (fun p => !s.trafficIn p.1 r) = true →
        (∀ p ∈ s.clk.landings, regionOfTile (p.1 / 4) = r → p.2 = []) →
        Sys2Proof.Machine.exec (.earlyGate r) s = .next (s.setRegion r { s.region r with done := true })) ∧
      (∀ sev, s.regionRuns r = true → sev ≤ 4 → s.enabled r = true ∨ sev = 0 →
        ∃ g, Sys2Proof.Machine.exec (.stretch r sev) s = .next (s.setRegion r g) ∧
        g.stretch = (s.region r).stretch + max sev (s.sympathy r) ∧ g.symp = (s.region r).symp + (s.sympathy r - sev) ∧
        g.bound = (s.region r).bound ∧ g.done = (s.region r).done ∧ g.fenced = (s.region r).fenced) ∧
      (∀ (v : W64) (hi : Bool), s.functions.contains u = true → 10 ≤ getBits v 3 0 → getBits v 3 0 ≤ 14 → 16 ≤ getBits v 16 8 →
        getBits v 16 8 ≤ 256 → (s.unit u).startHeld = false → s.running u = [] → s.dom = none →
        Sys2Proof.Machine.exec (.beatCfgWrite u v true hi) s =
          .next (s.setUnit u { s.unit u with pend := some (getBits v 3 0, getBits v 16 8) })) ∧
      (∀ (v : W64) (hi : Bool), (getBits v 3 0 < 10 ∨ 14 < getBits v 3 0 ∨ getBits v 16 8 < 16 ∨ 256 < getBits v 16 8) →
        Sys2Proof.Machine.exec (.beatCfgWrite u v true hi) s = .next s) ∧
      (∀ n m, (s.unit u).pend = some (n, m) → s.clk.locked = true → s.clk.tick = s.clk.frameStart → (s.unit u).nextSlot = 0 →
        Sys2Proof.Machine.exec (.beatCfgApply u) s = .next (s.setUnit u { s.unit u with k := n, slack := m, pend := none }))) ∧
  (∀ (s : State) (o : OpPending) (d : DescRef), s.clk.opPend = some o → s.frameNow = o.frame → s.clk.tick = s.clk.frameStart →
      (s.queue o.fn o.queue).executing.find? (fun e => e.order == o.tag) = some d → d.fn = o.fn → d.queue = o.queue →
      s.faults.coreFault = false →
      ∃ t : State, Sys2Proof.Machine.exec .opChangeApply s = .next t ∧ t.div = divider o.op ∧ t.clk.opPend = none ∧
        (∀ f ∈ s.functions, t.field f 0x30008 7 7 = 1) ∧
        (t.queue o.fn o.queue).executing = (s.queue o.fn o.queue).executing.filter (fun e => decide (e.order ≠ d.order)) ∧
        t.tiles = s.tiles ∧ t.mem = s.mem)

/-- R207, R218, R270: a dirty shelf becomes clean and reads as zeros; a new extent reads as zeros, and its context becomes EMPTY.
R222, R224, R283: the fetch of a staging entry for its next step begins once its lead beat starts, and the entry's next fetch stands
ready behind it; and a page of a fetch in progress that verifies, at its first read or at its second, is written to its place in the
extent. -/
def Obligations.MemoryZeroedAndStaged : Prop :=
  (∀ (s : State) (c sh : Nat),
      let x := s.ctx c
      (mfind x.shelves sh = some false → ∃ t : State, Sys2Proof.Machine.exec (.shelfZeroed c sh) s = .next t ∧
        mfind (t.ctx c).shelves sh = none ∧
        ∀ a, readByte t.mem.cellar a = if x.base + x.params.shelfBase + 131072 * sh ≤ a ∧ a < x.base + x.params.shelfBase + 131072 * (sh + 1)
          then 0 else readByte s.mem.cellar a) ∧
      (∀ d, x.phase = .creating → x.creating = some d → s.faults.coreFault = false →
        (s.queue d.fn d.queue).executing.any (fun e => e.order == d.order) = true →
        ∃ t : State, Sys2Proof.Machine.exec (.extentZeroed c) s = .next t ∧ (t.ctx c).phase = .empty ∧ (t.ctx c).base = x.base ∧
          (t.queue d.fn d.queue).executing.any (fun e => e.order == d.order) = false ∧
          ∀ a, readByte t.mem.cellar a = if x.base ≤ a ∧ a < x.base + x.params.extentBytes then 0 else readByte s.mem.cellar a)) ∧
  (∀ (s : State) (c e ad : Nat) (o : StageFetch), s.quiesced = false →
      (s.mem.staging.find? (fun x => x.ctx == c && x.entry == e && !x.started) = some o → o.passed = false → o.poisoned = false →
        (s.active (c / 256)).contains c = true → s.dueBeat o < s.planBeats c + o.lead →
        ∃ t : State, Sys2Proof.Machine.exec (.stagingFetchStart c e) s = .next t ∧ { o with started := true } ∈ t.mem.staging ∧
          (∃ n ∈ t.mem.staging, n.ctx = c ∧ n.entry = e ∧ o.step < n.step) ∧ t.mem.cellar = s.mem.cellar ∧
          t.tiles = s.tiles ∧ t.regs = s.regs) ∧
      (∀ data rec bs p first faults, s.stageOf c e = some o → o.written + 1 < o.pages →
        s.vaultPlace (c / 256) (o.vault + 4096 * o.written) = some p →
        let key := (mget {} s.mem.keys ((s.ctx c).keySlot)).gcmKey
        (∀ r ∈ first, openVaultPage key p (o.vault + 4096 * o.written) r.1 r.2 = none) → first.length ≤ 1 →
        openVaultPage key p (o.vault + 4096 * o.written) data rec = some bs →
        s.checkExtent (some c) (o.cellar + 4096 * o.written) bs.length = .ok ad →
        ∃ t : State, Sys2Proof.Machine.exec (.vaultPageRead c e (first ++ [(data, rec)]) faults) s = .next t ∧
          (∀ a, readByte t.mem.cellar a = if ad ≤ a ∧ a < ad + bs.length then bs.getD (a - ad) 0 else readByte s.mem.cellar a) ∧
          (∃ n ∈ t.mem.staging, n.ctx = c ∧ n.entry = e ∧ n.step = o.step ∧ n.written = o.written + 1 ∧ n.data = o.data ++ bs) ∧
          t.tiles = s.tiles ∧ t.regs = s.regs))

/-- R327, R328, R329, R337, R361: doorbells and the enabling and disabling of queues.  An index outside the ring, or a queue that is
off, only sets DOORBELL_ERR; an illegal ring size leaves the queue off.
R329, R333: the descriptor at the head of a ring joins the fetched ones and the head moves on by one; a fetch that ends in an
error stops the queue and discards what was fetched. -/
def Obligations.RingsAndDoorbells : Prop :=
  (∀ (s : State) (fn q : Nat) (v : W64), s.functions.contains fn = true → q < 64 →
      let n := getBits v 15 0
      (s.queueOn fn q = true → n < s.ringSize fn q → ∃ t : State, Sys2Proof.Machine.exec (.sqTail fn q v true) s = .next t ∧
        t.field fn (qpos q) 31 16 = n ∧ (t.queue fn q).sqTail = n ∧ (t.queue fn q).bell ≠ none ∧
        t.field fn (qpos q) 15 0 = s.field fn (qpos q) 15 0 ∧ (t.queue fn q).waiting = (s.queue fn q).waiting ∧
        t.tiles = s.tiles ∧ t.mem = s.mem ∧ t.ctxs = s.ctxs) ∧
      (s.queueOn fn q = true → n < s.ringSize fn q → ∃ t : State, Sys2Proof.Machine.exec (.cqHead fn q v true) s = .next t ∧
        (t.queue fn q).cqHead = n ∧
        (t.queue fn q).uncovered = (s.field fn (qpos q) 47 32 + s.ringSize fn q - n) % s.ringSize fn q ∧ t.regs = s.regs ∧
        t.tiles = s.tiles ∧ t.mem = s.mem ∧ t.ctxs = s.ctxs) ∧
      (s.queueOn fn q = false ∨ s.ringSize fn q ≤ n → ∀ c ∈ [Instr.sqTail fn q v true, Instr.cqHead fn q v true],
        Sys2Proof.Machine.exec c s = .next (s.status fn 0x10000 0)) ∧
      (s.queueOn fn q = false → v.getLsbD 0 = true → 6 ≤ getBits v 7 3 → getBits v 7 3 ≤ 16 →
        ∃ t : State, Sys2Proof.Machine.exec (.queueEnable fn q v true) s = .next t ∧ t.queueOn fn q = true ∧
          t.ringSize fn q = 2 ^ getBits v 7 3 ∧ t.field fn (qctl q) 2 1 = getBits v 2 1 ∧ t.reg fn (qpos q) = BitVec.ofNat 64 (2 ^ 48) ∧
          (t.queue fn q).waiting = [] ∧ (t.queue fn q).stopped = false ∧ (t.queue fn q).executing = (s.queue fn q).executing) ∧
      (s.queueOn fn q = false → v.getLsbD 0 = true → getBits v 7 3 < 6 ∨ 16 < getBits v 7 3 →
        ∃ t : State, Sys2Proof.Machine.exec (.queueEnable fn q v true) s = .next t ∧ t.queueOn fn q = false) ∧
      (s.queueOn fn q = true → v.getLsbD 0 = false →
        ∃ t : State, Sys2Proof.Machine.exec (.queueDisable fn q v true) s = .next t ∧ t.queueOn fn q = false ∧ (t.queue fn q).waiting = [] ∧
          ((s.queue fn q).waitNow = none → (t.queue fn q).executing = (s.queue fn q).executing) ∧ t.tiles = s.tiles ∧ t.mem = s.mem ∧
          t.ctxs = s.ctxs)) ∧
  (∀ (s : State) (fn q : Nat) (bytes : List Byte), s.functions.contains fn = true → q < 64 → s.fetchable fn q = true →
      (s.firstQueue fn q s.fetchable = true → bytes.length = 64 →
        ∃ t : State, Sys2Proof.Machine.exec (.descriptorFetch fn q bytes) s = .next t ∧
          (t.queue fn q).waiting = (s.queue fn q).waiting ++ [⟨s.field fn (qpos q) 15 0, bytes, s.frameNow⟩] ∧
          t.field fn (qpos q) 15 0 = (s.field fn (qpos q) 15 0 + 1) % s.ringSize fn q % 2 ^ 16 ∧
          t.field fn (qpos q) 31 16 = s.field fn (qpos q) 31 16 ∧ (t.queue fn q).executing = (s.queue fn q).executing ∧
          t.tiles = s.tiles ∧ t.mem = s.mem ∧ t.ctxs = s.ctxs) ∧
      (∃ t : State, Sys2Proof.Machine.exec (.fetchError fn q) s = .next t ∧
          (t.queue fn q).stopped = true ∧ (t.queue fn q).waiting = [] ∧ t.field fn 0x10000 1 1 = 1 ∧ t.tiles = s.tiles ∧ t.mem = s.mem))

/-- R271, R331: whatever its opcode, a descriptor whose header is not in order executes as a refusal with the header's reason code;
a command for another kind of descriptor than the next one does nothing (the model's choice, log entry 1).  Which row serves an opcode that no
row names, or a reserved mode of one, is log entry 29. -/
def Obligations.DescriptorHeaders : Prop :=
  ∀ (s : State) (fn q : Nat), ∀ r ∈ descRows, ∀ f, s.nextDesc fn q (fun _ => true) = some f →
    (r.serves f.bytes = false → Sys2Proof.Machine.exec (r.cmd fn q) s = .next s) ∧
    (∀ d u reason, r.serves f.bytes = true → s.begin fn q f = (d, u) → d.headerFault = some reason →
      Sys2Proof.Machine.exec (r.cmd fn q) s = .next (u.complete d 0x05 reason))

/-- R324, R332: the completion of a descriptor whose work is done: the tail and phase that follow, and for a function that reaches its
host the entry's bytes at the ring's tail, the addition to the DONE_FLAG and the interrupt; for one that does not, all of these wait. -/
def Obligations.Completions : Prop :=
  ∀ (s : State) (n st v : Nat) (d : DescRef), s.host.done[n]? = some (d, st, v) → s.faults.coreFault = false →
    (s.queue d.fn d.queue).executing.any (fun x => x.order == d.order) = true → d.queue < 64 →
    let tail := s.field d.fn (qpos d.queue) 47 32
    let phase := s.field d.fn (qpos d.queue) 48 48
    let entry := Output.completion d.fn d.queue tail
      (leBytes 8 v ++ leBytes 2 d.index ++ leBytes 1 st ++ leBytes 1 phase ++ (d.bytes.drop 4).take 4)
    let call := if d.int then [Output.interrupt d.fn d.queue] else []
    ∃ t : State, Sys2Proof.Machine.exec (.descriptorComplete n) s = .next t ∧
      (s.reachable d.fn = true → t.out = s.out ++ entry :: call ∧ t.host.unflushed = s.host.unflushed ∧
        (d.doneFlag < 4096 → t.syncFlag d.fn d.doneFlag = min (s.syncFlag d.fn d.doneFlag + 1) (2 ^ 64 - 1))) ∧
      (s.reachable d.fn = false → t.out = s.out ∧ (∀ i, i < 4096 → t.syncFlag d.fn i = s.syncFlag d.fn i) ∧
        t.host.unflushed = s.host.unflushed ++ (d.fn, entry, if d.doneFlag < 4096 then some d.doneFlag else none) ::
          call.map (fun o => (d.fn, o, none))) ∧
      t.field d.fn (qpos d.queue) 47 32 = (tail + 1) % s.ringSize d.fn d.queue % 2 ^ 16 ∧
      t.field d.fn (qpos d.queue) 48 48 = (if tail + 1 = s.ringSize d.fn d.queue then 1 - phase else phase) ∧
      (t.queue d.fn d.queue).executing = (s.queue d.fn d.queue).executing.filter (fun x => decide (x.order ≠ d.order)) ∧
      (t.queue d.fn d.queue).uncovered = (s.queue d.fn d.queue).uncovered + 1 ∧
      t.host.done = s.host.done.eraseIdx n ∧ t.tiles = s.tiles ∧ t.mem = s.mem ∧ t.ctxs = s.ctxs

/-- R334, R339, R340: NOP, SIGNAL and WAIT with operands in order: NOP completes (its result value is not stated: log entry 36), a
SIGNAL sets its flag or adds to it, saturating, and completes with the flag's new value, and a WAIT completes with the flag's value
if it has its VALUE and goes on executing otherwise.
R340, R341: a WAIT whose flag has reached its VALUE completes with the value that reached it; one whose time has passed
completes WAIT_TIMEOUT; the WAITs of the queues in a wait cycle complete WAIT_CYCLE and the function shows it. -/
def Obligations.WaitsAndSignals : Prop :=
  (∀ (s u : State) (fn q : Nat) (d : DescRef), s.starts fn q d u → d.fn = fn →
      (d.opcode = 0x01 → d.reservedOk [] = true →
        ∃ v, Sys2Proof.Machine.exec (.nop fn q) s = .next (u.complete d 0x00 v)) ∧
      (d.opcode = 0x03 → d.opd 2 1 = 0 → d.reservedOk [(0, 3), (8, 8)] = true → d.opd 0 2 < 4096 →
        ∃ t : State, Sys2Proof.Machine.exec (.signalSet fn q) s = .next (t.complete d 0x00 (d.opd 8 8)) ∧ t.syncFlag fn (d.opd 0 2) = d.opd 8 8 ∧
          (∀ n, n < 4096 → n ≠ d.opd 0 2 → t.syncFlag fn n = u.syncFlag fn n)) ∧
      (d.opcode = 0x03 → d.opd 2 1 = 1 → d.reservedOk [(0, 3), (8, 8)] = true → d.opd 0 2 < 4096 →
        ∃ t : State, Sys2Proof.Machine.exec (.signalAdd fn q) s = .next (t.complete d 0x00 (t.syncFlag fn (d.opd 0 2))) ∧
          t.syncFlag fn (d.opd 0 2) = min (u.syncFlag fn (d.opd 0 2) + d.opd 8 8) (2 ^ 64 - 1)) ∧
      (d.opcode = 0x02 → d.reservedOk [(0, 2), (8, 8), (16, 4)] = true → d.opd 0 2 < 4096 → d.opd 16 4 ≠ 0 →
        Sys2Proof.Machine.exec (.wait fn q) s =
          .next (if d.opd 8 8 ≤ u.syncFlag fn (d.opd 0 2) then u.complete d 0x00 (u.syncFlag fn (d.opd 0 2)) else u))) ∧
  (∀ (s : State) (fn q : Nat) (d : DescRef), (s.queue fn q).waitNow = some d →
      (∀ v, (s.queue fn q).hit = some v → Sys2Proof.Machine.exec (.waitSatisfied fn q) s = .next (s.complete d 0x00 v)) ∧
      ((s.queue fn q).hit = none → ∃ v, ∃ t : State, Sys2Proof.Machine.exec (.waitTimeout fn q) s = .next (t.complete d 0x04 v) ∧
        t.clk.tick = max s.clk.tick (d.start + d.opd 16 4 * 7000) ∧ t.host = s.host ∧ t.regs = s.regs) ∧
      (s.waitCycles fn [] = [q] → s.faults.coreFault = false → ∃ v, Sys2Proof.Machine.exec (.waitCycleCheck fn []) s =
        .next ((s.complete d 0x03 v).status fn 0x10000 2)) ∧
      (∀ later : List (Nat × List (List Byte)), s.faults.coreFault = false →
        let cycle := s.waitCycles fn (later.foldl (fun (m : Map (List (List Byte))) p => mput m p.1 p.2) [])
        q ∈ cycle → d.fn = fn → d.queue = q → ∃ t : State, Sys2Proof.Machine.exec (.waitCycleCheck fn later) s = .next t ∧
          (t.queue fn q).executing = (s.queue fn q).executing.filter (fun x => decide (x.order ≠ d.order)) ∧ t.field fn 0x10000 2 2 = 1 ∧
          t.tiles = s.tiles ∧ t.mem = s.mem ∧ t.ctxs = s.ctxs))

/-- R321, R324, R353: a CXL link's state and rate are shown to every function; a function moves to the other port when its own stays
down, and when memory space is enabled there the writes that no flushing read covers are made again and what it could not write goes out,
in order; leaving RUN is shown. -/
def Obligations.PortsAndFailover : Prop :=
  ∀ (s : State) (fn p : Nat), fn < 8 → p < 2 →
    (∀ speed width, s.power.good = true → speed = 1 ∨ speed = 2 → width = 2 ∨ width = 4 ∨ width = 8 →
      ∃ t : State, Sys2Proof.Machine.exec (.cxlLinkUp p speed width) s = .next t ∧
        t.field fn (0x10008 + 8 * p) 0 0 = 1 ∧ t.field fn (0x10008 + 8 * p) 2 1 = speed ∧ t.field fn (0x10008 + 8 * p) 6 3 = width ∧
        t.tiles = s.tiles ∧ t.mem = s.mem) ∧
    (s.field 0 (0x10008 + 8 * p) 0 0 = 1 → ∃ t : State, Sys2Proof.Machine.exec (.cxlLinkDown p) s = .next t ∧
        t.field fn (0x10008 + 8 * p) 0 0 = 0 ∧ t.field fn (0x10008 + 8 * p) 9 9 = 0 ∧
        (mget {} t.host.ports p : CxlPort).downAt = some s.clk.tick ∧ t.tiles = s.tiles ∧ t.mem = s.mem) ∧
    (∀ k, s.functions.contains fn = true → s.portOf fn = s.homeOf fn → (mget {} s.host.ports (s.homeOf fn) : CxlPort).downAt = some k →
      ∃ t : State, Sys2Proof.Machine.exec (.failover fn) s = .next t ∧ t.portOf fn = 1 - s.homeOf fn ∧ t.host.moved.contains fn = true ∧
        t.field fn 0x10000 3 3 = 1 ∧ t.clk.tick = max s.clk.tick (k + 70000000) ∧ t.tiles = s.tiles ∧ t.mem = s.mem) ∧
    (s.host.moved.contains fn = true → s.field fn (0x10008 + 8 * s.portOf fn) 0 0 = 1 →
      ∃ t : State, Sys2Proof.Machine.exec (.failoverResume fn) s = .next t ∧ t.reachable fn = true ∧
        let mine := s.host.unflushed.filter (fun w => w.1 == fn)
        t.out = s.out ++ (s.host.recent.filter (fun w => w.1 == fn)).map (·.2) ++ mine.map (·.2.1) ∧
        t.host.unflushed = s.host.unflushed.filter (fun w => w.1 != fn) ∧
        (∀ n, n < 4096 → t.syncFlag fn n = min (s.syncFlag fn n + (mine.filter (fun w => w.2.2 == some n)).length) (2 ^ 64 - 1))) ∧
    (∀ st, s.functions.contains fn = true → s.field fn 0x10018 1 0 = 2 → st < 4 → st ≠ 2 →
      ∃ t : State, Sys2Proof.Machine.exec (.tdispExit fn st) s = .next t ∧ t.field fn 0x10018 1 0 = st ∧
        ((List.range 16).any (fun h => s.hatchOn fn h && s.slotPlain fn h) = true →
          t.field fn 0x10000 4 4 = 1 ∧ (∀ q, q < 64 → t.queueOn fn q = false) ∧ ∀ h, h < 16 → t.hatchOn fn h = false))

/-- R270, R272, R275, R412: a context is created with the parameters read, the extent found and the key slot taken, an audited one while
fewer than four exist; CTX_DESTROY cancels its requests, and it is destroyed at once unless it runs; and its teardown frees it and
completes the descriptor with the step reached. -/
def Obligations.ContextLifecycle : Prop :=
  ∀ (s u : State) (fn q : Nat) (d : DescRef),
    (∀ params k a, s.starts fn q d u → d.fn = fn → d.opcode = 0x10 → d.reservedOk [(0, 1), (8, 8)] = true → d.opd 8 8 % 64 = 0 →
      params.length = 256 → paramsOk params = true → (u.ctx d.ctxKey).phase = .free → u.freeKey fn = some k →
      u.placeExtent fn (readParams params).extentBytes = some a → (readParams params).audited = false ∨ u.auditCount fn < 4 →
      ∃ t : State, Sys2Proof.Machine.exec (.ctxCreate fn q params) s = .next t ∧ (t.ctx d.ctxKey).phase = .creating ∧
        (t.ctx d.ctxKey).params = readParams params ∧ (t.ctx d.ctxKey).base = a ∧ (t.ctx d.ctxKey).keySlot = k ∧
        (t.ctx d.ctxKey).creating = some d ∧ (mget {} t.mem.keys k).owner = some d.ctxKey ∧ t.mem.cellar = s.mem.cellar ∧
        t.tiles = s.tiles) ∧
    (s.starts fn q d u → d.fn = fn → d.opcode = 0x11 → d.reservedOk [(0, 1)] = true → u.ctxUsable d.ctxKey = true →
      u.dom.map (·.ctx) ≠ some d.ctxKey →
      ∃ t : State, Sys2Proof.Machine.exec (.ctxDestroy fn q) s = .next t ∧ (t.ctx d.ctxKey).destroying = some d ∧
        (t.ctx d.ctxKey).phase = (if (u.ctx d.ctxKey).phase = .running then .running else .destroying) ∧
        (∀ p ∈ (t.ctx d.ctxKey).reqs, p.2.phase ≠ .retired → p.2.cancelled = true) ∧ t.tiles = s.tiles ∧ t.mem = s.mem) ∧
    (∀ c, (s.ctx c).phase = .destroying → (s.ctx c).destroying = some d → (s.ctx c).reqs = [] → s.faults.coreFault = false →
      ∃ t : State, Sys2Proof.Machine.exec (.ctxTeardownDone c) s = .next t ∧ t.ctx c = {} ∧
        mfind t.mem.keys (s.ctx c).keySlot = none ∧ (∀ p ∈ t.host.streams, p.2.ctx ≠ c) ∧
        (t.queue d.fn d.queue).executing.any (fun x => x.order == d.order) = false ∧
        (∀ e ∈ (s.ctx c).inProgress, (t.queue e.fn e.queue).executing.any (fun x => x.order == e.order) = false) ∧
        t.mem.cellar = s.mem.cellar ∧ t.tiles = s.tiles ∧
        (s.host.streams = [] → s.host.hatches = [] → (s.ctx c).inProgress = [] →
          ∃ v : State, t = v.complete d 0x00 (s.ctx c).steps ∧ v.out = s.out))

/-- R272, R274, R279, R284: a weight load whose checks pass drops the context's weights and stands in progress with the table's shards; a
plan load drops the plan likewise and stands in progress until its image has come, and an image that passes its checks becomes the
context's plan. -/
def Obligations.LoadsBegin : Prop :=
  ∀ (s u : State) (fn q : Nat) (d : DescRef), s.starts fn q d u → d.fn = fn →
    let c := d.ctxKey
    u.phaseOf c = .empty ∨ u.phaseOf c = .ready → (∀ l ∈ (u.ctx c).loads, l.desc.order ≠ d.order) →
    (∀ manifest table list i, d.opcode = 0x13 → d.reservedOk [(0, 1), (2, 30)] = true → u.tableFaults d table = [] →
      ((u.modCtx c (fun x => { x with weights := none, staged := none })).settlePhase c).prepareLoad c manifest table false = .ok i →
      ∃ t : State, ∃ l, Sys2Proof.Machine.exec (.weightsLoad fn q manifest table list) s = .next t ∧ (t.ctx c).weights = none ∧
        ((u.ctx c).phase ≠ .running → (t.ctx c).phase = .empty) ∧
        (t.ctx c).loads = (u.ctx c).loads ++ [l] ∧ l.desc = d ∧ l.kind = .weights ∧ l.shards.map (·.entry) = i.entries ∧
        (∀ sh ∈ l.shards, sh.verified = false ∧ sh.attempt = 1) ∧ t.tiles = s.tiles) ∧
    (∀ image, d.opcode = 0x12 → d.reservedOk [(0, 3), (4, 2), (8, 32)] = true → d.opd 1 1 = 1 → d.opd 2 1 = 0 → d.opd 4 2 < 4096 →
      d.opd 24 8 % 4096 = 0 → d.opd 36 4 ≠ 0 → d.opd 16 8 ≠ 0 → (u.ctx c).params.inFree (d.opd 24 8) (d.opd 16 8) = true →
      (∀ l ∈ (u.ctx c).loads, l.kind ≠ .plan) → d.opd 32 4 = 0 →
      let n := d.opd 16 8
      let img := image.take n
      (image.length < n → ∃ t : State, ∃ l, Sys2Proof.Machine.exec (.planLoad fn q image) s = .next t ∧ (t.ctx c).plan = none ∧
        ((u.ctx c).phase ≠ .running → (t.ctx c).phase = .empty) ∧
        (t.ctx c).loads = (u.ctx c).loads ++ [l] ∧ l.desc = d ∧ l.kind = .plan ∧ t.tiles = s.tiles ∧ t.mem.cellar = s.mem.cellar) ∧
      (∀ v skipped pl writes, n ≤ image.length → imageOk img n = true → fieldAt img 6 2 = u.field 0 0x38 55 40 →
        imageDigest img = (img.drop 0x40).take 64 → selectVariant img (u.partShape (c / 256)) u.fencedMask = (some v, skipped) →
        buildPlan img v (u.ctx c).params.planBase (u.ctx c).params.planBytes = some (pl, writes) →
        ∃ t : State, Sys2Proof.Machine.exec (.planLoad fn q image) s = .next t ∧ (t.ctx c).plan = some pl ∧
          (t.ctx c).loads = (u.ctx c).loads ∧ t.tiles = s.tiles))

/-- R279, R280, R282: an attempt whose data has the manifest's digest verifies its shard and puts the bytes in their place, and the last
shard of a weight load makes its set the context's next generation; the first deadline and the time-out fall at TIMEOUT_MS / 2 and
TIMEOUT_MS from the start: the first ends the first attempts that have not completed, the second ends the load. -/
def Obligations.ShardFetches : Prop :=
  ∀ (s : State) (c n ad : Nat) (l : Load), (s.ctx c).loads[n]? = some l → s.findLoad c l.desc.order = some l → s.link.early = [] →
    (∀ i sh (data : List Byte), l.kind = .weights → l.shards[i]? = some sh → sh.fetching = true → sh.verified = false → sh.kind = 1 →
      sh.entry.root = false → sh.entry.vaultDest = false → data.length = sh.entry.bytes → sha512 data = sh.entry.digest →
      s.checkExtent (some c) sh.entry.dest sh.entry.bytes = .ok ad →
      let placed := fun (t : State) => ∀ a,
        readByte t.mem.cellar a = if ad ≤ a ∧ a < ad + data.length then data.getD (a - ad) 0 else readByte s.mem.cellar a
      (∀ j o, j ≠ i → l.shards[j]? = some o → o.verified = false →
        ∃ t : State, ∃ l', Sys2Proof.Machine.exec (.shardAttemptDone c n i data false) s = .next t ∧ placed t ∧
          t.findLoad c l.desc.order = some l' ∧ l'.shards.map (·.verified) = (setAt (l.shards.map (·.verified)) i true) ∧
          (t.ctx c).weights = (s.ctx c).weights ∧ t.tiles = s.tiles) ∧
      ((∀ j o, j ≠ i → l.shards[j]? = some o → o.verified = true) → l.set.listCount = 0 →
        ∃ t : State, Sys2Proof.Machine.exec (.shardAttemptDone c n i data false) s = .next t ∧ placed t ∧
          t.findLoad c l.desc.order = none ∧ (t.ctx c).weights = some { l.set with gen := (s.ctx c).lastGen + 1 } ∧
          (t.ctx c).lastGen = (s.ctx c).lastGen + 1 ∧ t.tiles = s.tiles)) ∧
    (l.firstDeadline = false → ∃ t : State, ∃ l', Sys2Proof.Machine.exec (.shardFirstDeadline c n) s = .next t ∧
        t.clk.tick = max s.clk.tick (l.since + l.timeout * 7000000 / 2) ∧ t.findLoad c l.desc.order = some l' ∧ l'.firstDeadline = true ∧
        l'.shards.map (·.attempt) = l.shards.map (fun sh => if sh.attempt = 1 ∧ sh.verified = false then 2 else sh.attempt) ∧
        t.mem.cellar = s.mem.cellar) ∧
    ((s.ctx c).waits = [] → ∃ t : State, Sys2Proof.Machine.exec (.loadTimeout c n) s = .next t ∧
        t.clk.tick = max s.clk.tick (l.since + l.timeout * 7000000) ∧ t.findLoad c l.desc.order = none ∧
        (l.kind = .weights ∨ l.kind = .stage ∨ l.kind = .plan → t.mem.cellar = s.mem.cellar) ∧ t.tiles = s.tiles)

/-- R285, R287: a COMMIT takes the staged set, and waits for its barrier where the context runs its steps, else it starts with the next
generation; a swap with a manifest whose checks pass stands in progress with the shards that differ.
R287, R288: where no barrier is to come a commit starts with the next generation; copies put each staged shard in its place, and when
they, or the fetches of a direct swap, are complete the set waits for the end of the void steps in a context that runs, and comes into
force at once in one that does not. -/
def Obligations.SwapsAndCommits : Prop :=
  (∀ (s u : State) (fn q : Nat) (d : DescRef), s.starts fn q d u → d.fn = fn → d.opcode = 0x14 →
      let c := d.ctxKey
      (∀ g, d.opd 1 1 = 2 → d.reservedOk [(0, 8), (24, 20)] = true → d.opd 2 2 < 4096 → d.opd 24 4 ≠ 0 → u.weightsBusy c = false →
        d.opd 28 4 = 0 → u.barrierBad d = false → (u.ctx c).staged = some g → u.swapFaults d = [] →
        ∃ t : State, ∃ w, Sys2Proof.Machine.exec (.weightsSwapCommit fn q) s = .next t ∧ (t.ctx c).swap = some w ∧ w.desc = d ∧ w.next = some g ∧
          w.direct = false ∧ w.copied = false ∧ (t.ctx c).staged = none ∧ (t.ctx c).weights = (u.ctx c).weights ∧ t.mem = s.mem ∧
          t.tiles = s.tiles ∧
          (u.runsSteps c = true → w.started = false ∧ w.barrierStep = d.opd 32 8 ∧ w.voidSteps = d.opd 40 4) ∧
          (u.runsSteps c = false → w.started = true ∧ w.gen = (u.ctx c).lastGen + 1)) ∧
      (∀ manifest table cur i kind cmd, (kind, cmd) ∈ [(LoadKind.stage, Instr.weightsSwapStage fn q manifest table),
          (LoadKind.stageCommit, Instr.weightsSwapStageAndCommit fn q manifest table), (LoadKind.direct, Instr.weightsSwapDirect fn q manifest table)] →
        d.opd 1 1 = (match kind with | .stage => 1 | .stageCommit => 3 | _ => 4) →
        d.reservedOk (if kind = .stage then [(0, 32)] else [(0, 44)]) = true → (kind = .stage ∨ u.barrierBad d = false) →
        u.swapFaults d = [] → u.tableFaults d table = [] → (∀ l ∈ (u.ctx c).loads, l.desc.order ≠ d.order) →
        (u.ctx c).weights = some cur → u.prepareLoad c manifest table true = .ok i → layoutBad cur i (changedShards cur i) = false →
        changedShards cur i ≠ [] →
        (kind = .direct ∨ ((placeStage i.stageBase (changedShards cur i)).2 ≤ i.stageBase + i.stageBytes ∧
          (u.ctx c).params.inFree i.stageBase i.stageBytes = true ∧
          anyMeet ((i.stageBase, i.stageBytes) :: i.copies.map (fun p => (p.1, p.2.length))) = false ∧
          i.entries.any (fun e => !e.vaultDest && spansMeet i.stageBase i.stageBytes e.dest e.bytes) = false)) →
        ∃ t : State, ∃ l, Sys2Proof.Machine.exec cmd s = .next t ∧ (t.ctx c).loads = (u.ctx c).loads ++ [l] ∧ l.kind = kind ∧ l.desc = d ∧
          l.changed = changedShards cur i ∧ (t.ctx c).weights = some cur ∧ ((t.ctx c).swap.isSome = decide (kind ≠ .stage)) ∧
          t.tiles = s.tiles)) ∧
  (∀ (s : State) (c : Nat) (w : Swap), (s.ctx c).swap = some w →
      (w.started = false → w.voids ≠ none ∨ (s.swapWaits c w = false ∧ w.next ≠ none) →
        ∃ t : State, ∃ w', Sys2Proof.Machine.exec (.swapBarrierStart c) s = .next t ∧
        (t.ctx c).swap = some w' ∧ w'.started = true ∧ w'.gen = (s.ctx c).lastGen + 1 ∧ w'.next = w.next ∧
        (w.direct = false → t.mem = s.mem) ∧ t.tiles = s.tiles) ∧
      (∀ (g : Staged) (faults : List (Nat × Option (List Byte))), w.next = some g → w.started = true → w.copied = false →
        (w.direct = true → s.findLoad c w.desc.order = none) →
        (w.voids ≠ none → (s.ctx c).phase = .running → ∃ t : State, Sys2Proof.Machine.exec (.swapCommitDone c faults) s = .next t ∧
          (t.ctx c).swap = some { w with copied := true } ∧ (t.ctx c).weights = (s.ctx c).weights ∧ t.tiles = s.tiles) ∧
        ((s.ctx c).phase ≠ .running → ∃ t : State, Sys2Proof.Machine.exec (.swapCommitDone c faults) s = .next t ∧
          (t.ctx c).swap = none ∧ (t.ctx c).weights = some { g.set with gen := w.gen } ∧ (t.ctx c).lastGen = w.gen ∧ t.tiles = s.tiles) ∧
        (∀ e a b, g.changed = [e] → w.direct = false → faults = [] → e.bytes ≠ 0 →
          s.checkExtent (some c) (roundUp g.stageBase 4096) e.bytes = .ok a → s.checkExtent (some c) e.dest e.bytes = .ok b →
          (∀ n ∈ transfersOf a e.bytes, s.marked n = false) →
          ∃ t : State, Sys2Proof.Machine.exec (.swapCommitDone c faults) s = .next t ∧
            ∀ i, i < e.bytes → readByte t.mem.cellar (b + i) = readByte s.mem.cellar (a + i))))

/-- R291, R292, R293: an adapter descriptor in order takes the lowest free slot and loads into it, or waits for one where none is free; a
removal is noted until the boundary of a context that runs and completes at once in one that does not; the time-out of a wait completes
ADAPTER_BUSY. -/
def Obligations.AdapterDescriptors : Prop :=
  ∀ (s u : State) (fn q : Nat) (d : DescRef), d.fn = fn →
    let c := d.ctxKey
    (∀ manifest table replace, s.starts fn q d u → d.opcode = (if replace then 0x16 else 0x15) →
      (replace = true → d.opd 1 1 = 0) → u.adapterFaults d (if replace then [(0, 28)] else [(0, 1), (2, 26)]) table = [] →
      (u.ctx c).waits = [] →
      (if replace then (u.ctx c).adapterLoaded (d.opd 2 2) = true else (u.ctx c).adapterHeld (d.opd 2 2) = false) →
      let cmd := if replace then Instr.adapterReplace fn q manifest table else Instr.adapterLoad fn q manifest table
      ((u.ctx c).freeAdapter = none → ∃ t : State, Sys2Proof.Machine.exec cmd s = .next t ∧
        (t.ctx c).waits = [⟨d, c, d.opd 2 2, replace, d.opd 24 4, manifest, table⟩] ∧ (t.ctx c).adapters = (u.ctx c).adapters ∧
        t.mem = s.mem ∧ t.tiles = s.tiles) ∧
      (∀ slot dg es m, (u.ctx c).freeAdapter = some slot → adapterPrepare (u.ctx c).params slot manifest table = .ok (dg, es, m) →
        (∀ l ∈ (u.ctx c).loads, l.desc.order ≠ d.order) →
        ∃ t : State, ∃ a l, Sys2Proof.Machine.exec cmd s = .next t ∧ (t.ctx c).waits = [] ∧
          (t.ctx c).loads = (u.ctx c).loads ++ [l] ∧ l.kind = .adapter (d.opd 2 2) slot replace ∧ l.desc = d ∧ l.shards.map (·.entry) = es ∧
          mfind (t.ctx c).adapters slot = some a ∧ a.phase = .loading ∧ a.id = d.opd 2 2 ∧ a.digest = dg ∧ a.verified = none ∧
          t.tiles = s.tiles)) ∧
    (s.starts fn q d u → d.opcode = 0x16 → d.opd 1 1 = 1 → d.reservedOk [(0, 28)] = true → d.opd 2 2 < 4096 → d.opd 24 4 ≠ 0 →
      u.ctxUsable c = true → (u.ctx c).adapterBusy (d.opd 2 2) = false → (u.ctx c).adapterLoaded (d.opd 2 2) = true →
      (u.runsSteps c = true → ∃ t : State, Sys2Proof.Machine.exec (.adapterRemove fn q) s = .next t ∧
        (t.ctx c).removals = (u.ctx c).removals ++ [(d.opd 2 2, d)] ∧
        (t.ctx c).adapters = (u.ctx c).adapters ∧ t.mem = s.mem ∧ t.tiles = s.tiles) ∧
      (u.runsSteps c = false → (u.ctx c).waits = [] → u.faults.coreFault = false →
        ∃ t : State, Sys2Proof.Machine.exec (.adapterRemove fn q) s = .next t ∧ (t.ctx c).removals = [] ∧
        (t.queue fn q).executing.any (fun x => x.order == d.order) = false ∧ t.mem = s.mem ∧ t.tiles = s.tiles)) ∧
    (∀ n w, (s.ctx c).waits[n]? = some w → ∃ v, ∃ t : State, Sys2Proof.Machine.exec (.adapterSlotTimeout c n) s = .next (t.complete w.desc 0x0A v) ∧
      t.clk.tick = max s.clk.tick (w.desc.start + w.timeout * 7000000) ∧
      (t.ctx c).waits = (s.ctx c).waits.filter (fun y => y.desc.order != w.desc.order) ∧ t.mem = s.mem ∧ t.tiles = s.tiles)

/-- R306, R311, R312, R317, R320: the request descriptors: each that passes its checks applies at its boundary, the one that AT_STEP names in
domain mode and the next one otherwise; a cancel waits on its requests, and one of a request that is not live completes at once.  That a tree is
checked against the first DECODE engine of the request's chain is log entry 23. -/
def Obligations.RequestDescriptors : Prop :=
  ∀ (s u : State) (fn q : Nat) (d : DescRef), s.starts fn q d u → d.fn = fn →
    let c := d.ctxKey
    let id := d.opd 2 2
    let at_ := if u.domainMode = true then d.opd 40 8 else if (u.ctx c).phase = .running then (u.ctx c).steps + 1 else (u.ctx c).steps
    (∀ block input mask faults, d.opcode = 0x20 → block.length = 256 → u.admitFaults d block faults = [] →
      (u.phaseOf c = .ready → u.domainMode = false → u.markBad = false) →
      ∃ t : State, ∃ r, Sys2Proof.Machine.exec (.reqAdmit fn q block input mask faults) s = .next t ∧ mfind (t.ctx c).reqs id = some r ∧ r.id = id ∧
        r.desc = some d ∧ r.phase = .queued ∧ r.pos = 0 ∧ r.maxPos = d.opd 28 4 ∧ r.inputBase = fieldAt block 0x48 8 ∧
        (t.ctx c).deferred = (u.ctx c).deferred ++ [(at_, .admission id)] ∧
        (u.phaseOf c = .ready → u.domainMode = false → (t.ctx c).step.starting ≠ none ∧ (t.ctx c).step.base = (u.ctx c).steps) ∧
        (∀ j, j ≠ id → mfind (t.ctx c).reqs j = mfind (u.ctx c).reqs j) ∧ t.tiles = s.tiles) ∧
    (∀ bytes r, d.opcode = 0x22 → u.req c id = some r → u.feedFaults d = [] → d.opd 16 4 ≠ 0 →
      let inRec := (((u.ctx c).engine r.first).map (·.inRec)).getD 0
      let defers := fun (t : State) (x : Deferred) => (t.ctx c).deferred = (u.ctx c).deferred ++ [(at_, x)] ∧
        (t.ctx c).reqs = (u.ctx c).reqs ∧ t.tiles = s.tiles
      let bs := hostRead bytes (d.opd 16 4)
      (d.opd 1 1 = 1 → d.opd 16 4 % 4 = 0 → u.positionsUsed c r + d.opd 16 4 / 4 ≤ r.maxPos →
        ∃ t : State, ∃ f, Sys2Proof.Machine.exec (.reqFeedTokens fn q bytes) s = .next t ∧ defers t (.feed id f bs) ∧ f.desc = some d ∧ f.data = false ∧
          f.dest = d.opd 24 8 ∧ f.positions = d.opd 16 4 / 4) ∧
      (d.opd 1 1 = 2 → inRec ≠ 0 → d.opd 16 4 % inRec = 0 → u.positionsUsed c r + d.opd 16 4 / inRec ≤ r.maxPos →
        ∃ t : State, ∃ f, Sys2Proof.Machine.exec (.reqFeedData fn q bytes) s = .next t ∧ defers t (.feed id f bs) ∧ f.desc = some d ∧ f.data = true ∧
          f.dest = d.opd 24 8 ∧ f.positions = d.opd 16 4 / inRec) ∧
      (∀ e, d.opd 1 1 = 3 → (((u.ctx c).chain r.first 9).find? (·.decode)) = some e → e.spec = true → e.sample = true →
        treeOk bs e.slotTokens = true →
        ∃ t : State, ∃ x, Sys2Proof.Machine.exec (.reqFeedTree fn q bytes) s = .next t ∧ defers t (.tree id x bs) ∧ x.desc = some d ∧
          x.basePos = d.opd 32 4 ∧ x.nodes = treeNodes bs)) ∧
    (d.opcode = 0x21 → d.opd 1 1 = 0 → u.cancelFaults d = [] →
      (mfind (u.ctx c).reqs id = none → Sys2Proof.Machine.exec (.reqCancel fn q) s = .next (u.complete d 0x00 (2 ^ 64 - 1))) ∧
      (∀ r, mfind (u.ctx c).reqs id = some r → r.phase = .retired →
        Sys2Proof.Machine.exec (.reqCancel fn q) s = .next (u.complete d 0x00 (r.effect.getD 0))) ∧
      (∀ r, mfind (u.ctx c).reqs id = some r → r.id = id → r.phase ≠ .retired →
        ∃ t : State, Sys2Proof.Machine.exec (.reqCancel fn q) s = .next t ∧
          mfind (t.ctx c).reqs id = some { r with cancelled := true, cancels := r.cancels ++ [(d, d.opd 40 8)] } ∧
          (∀ j, j ≠ id → mfind (t.ctx c).reqs j = mfind (u.ctx c).reqs j) ∧ t.mem = s.mem ∧ t.tiles = s.tiles)) ∧
    (d.opcode = 0x21 → d.opd 1 1 = 1 → u.cancelFaults d = [] → ((u.ctx c).reqs.map (·.1)).Nodup → (∀ p ∈ (u.ctx c).reqs, p.2.id = p.1) →
      ∃ t : State, Sys2Proof.Machine.exec (.reqCancelAll fn q) s = .next t ∧ t.mem = s.mem ∧ t.tiles = s.tiles ∧
        (∀ j r, mfind (u.ctx c).reqs j = some r → r.phase ≠ .retired → r.effect = none →
          mfind (t.ctx c).reqs j = some { r with cancelled := true, cancels := r.cancels ++ [(d, d.opd 40 8)] }) ∧
        (∀ j r, mfind (u.ctx c).reqs j = some r → r.phase = .retired → mfind (t.ctx c).reqs j = some r))

/-- R342, R348, R350, R352: a COPY in order from host memory or from a hatch slot that the device holds puts the bytes at the destination; one
out of the extent takes the bytes that the read delivers to another place of it, to host memory, unless any carries the poison flag, or to the
producers of a hatch.  The completion follows.  One from a slot that the device does not hold completes HATCH_OWNER.  The status of a copy of
poisoned bytes to host memory is the model's free value (log entry 69). -/
def Obligations.Copies : Prop :=
  ∀ (s u : State) (fn q : Nat) (d : DescRef) (data : List Byte) (faults : List SymFault), s.starts fn q d u → d.fn = fn → d.opcode = 0x30 →
    u.copyFaults d = [] →
    let c := d.ctxKey
    let src := d.opd 8 8
    let dst := d.opd 16 8
    let n := d.opd 24 8
    let h := d.opd 3 1
    let run := Sys2Proof.Machine.exec (.copy fn q data faults) s
    (∀ ad, d.opd 1 1 = 1 → u.checkExtent (some c) dst n = .ok ad →
      ∃ t : State, run = .next t ∧
        (∀ a, readByte t.mem.cellar a = if ad ≤ a ∧ a < ad + n then data.getD (a - ad) 0 else readByte s.mem.cellar a) ∧
        t.host.done = u.host.done ++ [(d, 0x00, 0)] ∧ t.tiles = s.tiles ∧ t.regs = s.regs) ∧
    (∀ bs k ad, d.opd 1 1 = 3 → (u.hatch fn h).owned.contains src = true →
      u.openSlot fn h c src (hostRead data (u.slotBytes fn h)) = some (bs, k) → u.checkExtent (some c) dst (bs.take n).length = .ok ad →
      ∃ t : State, run = .next t ∧
        (∀ a, readByte t.mem.cellar a = if ad ≤ a ∧ a < ad + (bs.take n).length then (bs.take n).getD (a - ad) 0 else readByte s.mem.cellar a) ∧
        (t.hatch fn h).owned.contains src = false ∧ (u.slotPlain fn h = false → mget 0 (t.hatch fn h).lastIn c = k) ∧
        (u.reachable fn = true → t.out = s.out ++ [.hatchFlag fn h src 0]) ∧ t.host.done = u.host.done ++ [(d, 0x00, src)] ∧
        t.tiles = s.tiles ∧ t.regs = s.regs) ∧
    (d.opd 1 1 = 3 → (u.hatch fn h).owned.contains src = false →
      ∃ r, run = .next (u.complete d 0x0F r)) ∧
    (∀ bs bad v, d.opd 1 1 = 2 → u.hubRead c src n faults = (bs, bad, v) →
      (d.opd 2 1 = 1 → bad = [] →
        ∃ t : State, run = .next t ∧ (v.reachable fn = true → t.out = v.out ++ [.hostWrite dst bs]) ∧
          (v.reachable fn = false → t.out = v.out ∧ t.host.unflushed = u.host.unflushed ++ [(fn, .hostWrite dst bs, none)]) ∧
          t.host.done = u.host.done ++ [(d, 0x00, 0)] ∧ t.mem.cellar = s.mem.cellar ∧ t.tiles = s.tiles) ∧
      (d.opd 2 1 = 1 → bad ≠ [] → ∃ st r, 0 < st ∧ st ≤ 18 ∧ run = .next (v.complete d st r)) ∧
      (d.opd 2 1 = 3 → ∃ t : State, run = .next t ∧
        (t.hatch fn h).jobs = (u.hatch fn h).jobs ++ [⟨.copy d, c, bs, bad, []⟩] ∧ (t.hatch fn h).owned = (u.hatch fn h).owned ∧
        t.mem.cellar = s.mem.cellar ∧ t.tiles = s.tiles) ∧
      (∀ ad, d.opd 2 1 = 2 → v.checkExtent (some c) dst n = .ok ad →
        ∃ t : State, run = .next t ∧
          (∀ a, readByte t.mem.cellar a = if ad ≤ a ∧ a < ad + n then bs.getD (a - ad) 0 else readByte s.mem.cellar a) ∧
          (bad = [] → ∀ i, (i + 1) * 64 ≤ n → ad % 64 = 0 → t.marked (ad / 64 + i) = false) ∧
          (∀ p ∈ bad, ∀ i, p.1 ≤ i → i < p.2 → t.marked ((ad + i) / 64) = true) ∧
          t.host.done = u.host.done ++ [(d, 0x00, 0)] ∧ t.tiles = s.tiles))

/-- R337, R346 to R352, R362: a hatch is enabled with slot NEXT at 0, where its geometry is in order, and disabled with its enable clear; a flag
line read again gives the device the slots that it shows, and counts each slot that the device held and it shows otherwise; and the producer
whose turn it is writes slot NEXT, and hands its slots back when all are written, those with poison of their own as POISONED.  That a record
which a disable cut off starts again from its first byte at the next enable is log entry 28. -/
def Obligations.Hatches : Prop :=
  ∀ (s : State) (fn h : Nat) (v : W64), s.functions.contains fn = true → h < 16 → fn < 8 →
    let x := s.hatch fn h
    (s.hatchOn fn h = false → v.getLsbD 0 = true →
      let k := getBits v 8 4
      let n := s.slotCount fn h
      let run := Sys2Proof.Machine.exec (.hatchEnable fn h v true) s
      (12 ≤ k → k ≤ 26 → 1 ≤ n → n * 2 ^ k ≤ 2 ^ 36 → ∃ t : State, run = .next t ∧
        t.hatchOn fn h = true ∧ t.nextSlotOf fn h = 0 ∧ t.slotBytes fn h = 2 ^ k ∧ t.field fn (hcfg h) 1 1 = getBits v 1 1 ∧
        t.field fn (hcfg h) 3 2 = getBits v 3 2 ∧ t.field fn (hcfg h) 9 9 = 1 ∧ t.slotPlain fn h = s.plainNow fn ∧
        (t.hatch fn h).owned = [] ∧ (t.hatch fn h).jobs = x.jobs.map (fun j => { j with written := [] }) ∧ t.tiles = s.tiles ∧ t.mem = s.mem) ∧
      (k < 12 ∨ 26 < k ∨ n = 0 ∨ 2 ^ 36 < n * 2 ^ k → ∃ t : State, run = .next t ∧ t.hatchOn fn h = false ∧ t.field fn 0x20000 3 3 = 1 ∧
        t.hatch fn h = x ∧ t.tiles = s.tiles ∧ t.mem = s.mem)) ∧
    (v.getLsbD 0 = false →
      let run := Sys2Proof.Machine.exec (.hatchDisable fn h v true) s
      (s.hatchOn fn h = true → ∃ t : State, run = .next t ∧ t.hatchOn fn h = false ∧ t.field fn (hcfg h) 9 9 = 0 ∧ (t.hatch fn h).owned = [] ∧
        (t.hatch fn h).jobs = x.jobs ∧ t.tiles = s.tiles ∧ t.mem = s.mem) ∧
      (s.hatchOn fn h = false → ∃ t : State, run = .next t ∧ t.hatchOn fn h = false ∧ t.field fn (hcfg h) 1 1 = getBits v 1 1 ∧
        t.field fn (hcfg h) 3 2 = getBits v 3 2 ∧ t.slotBytes fn h = 2 ^ getBits v 8 4 ∧ t.hatch fn h = x ∧ t.tiles = s.tiles ∧ t.mem = s.mem)) ∧
    (∀ line flags, s.hatchOn fn h = true → s.reachable fn = true →
      let shows := fun (k : Nat) (f : Byte) => k < s.slotCount fn h ∧ k / 64 = line ∧ flags[k % 64]? = some f
      let lost := ((List.range 64).filter (fun i => flags[i]?.any (fun f => f != 1) && decide (64 * line + i < s.slotCount fn h) &&
        x.owned.contains (64 * line + i))).length
      ∃ t : State, Sys2Proof.Machine.exec (.hatchFlagRefresh fn h line flags) s = .next t ∧ t.tiles = s.tiles ∧ t.mem = s.mem ∧
        (lost = 0 → (∀ k, (t.hatch fn h).owned.contains k = true ↔ x.owned.contains k = true ∨ shows k 1) ∧
          (t.hatch fn h).jobs = x.jobs ∧ t.regs = s.regs ∧ t.out = s.out) ∧
        (lost ≠ 0 → t.field fn 0x20008 31 0 = min (s.field fn 0x20008 31 0 + lost) (2 ^ 32 - 1) ∧ t.field fn 0x20000 0 0 = 1 ∧
          ∀ k f, shows k f → f ≠ 1 → (t.hatch fn h).owned.contains k = false)) ∧
    (∀ i j, x.turn s.heldJob = some (i, j) → s.slotDue fn h = true → s.firstHatch fn h = true → s.reachable fn = true → s.slotCount fn h ≤ 2 ^ 24 →
      let slot := s.nextSlotOf fn h
      let p := s.payloadBytes fn h
      let out := s.out ++ [.hatchSlot fn h slot (s.sealSlot fn h j.ctx slot (j.slotData p)).1]
      let w := j.written ++ [slot]
      let run := Sys2Proof.Machine.exec (.outputRecordPlace fn h) s
      let wrote := fun (t : State) => t.nextSlotOf fn h = (slot + 1) % max 1 (s.slotCount fn h) ∧
        (s.slotPlain fn h = false → mget 0 t.host.outCount j.ctx = mget 0 s.host.outCount j.ctx + 1) ∧ t.tiles = s.tiles ∧ t.mem = s.mem
      (w.length < j.slots p → ∃ t : State, run = .next t ∧ wrote t ∧ t.out = out ∧
        (t.hatch fn h).jobs = setAt x.jobs i { j with written := w } ∧ (t.hatch fn h).owned = x.owned) ∧
      (j.slots p ≤ w.length → ∃ t : State, wrote t ∧ (t.hatch fn h).jobs = x.jobs.eraseIdx i ∧
        (∀ k, (t.hatch fn h).owned.contains k = (x.owned.contains k && !w.contains k)) ∧
        t.out = out ++ (List.range w.length).map (fun k => .hatchFlag fn h (w.getD k 0) (if j.badSlot p k then 3 else 2)) ∧
        run = .next (match j.kind with
          | .record c id => t.settleReq c id
          | .frame st _ _ => t.frameDone fn st j.data.length (!j.poison.isEmpty)
          | .close st => t.streamClosed fn st
          | .copy d => t.complete d 0x00 (w.headD 0))))

/-- R355 to R360: encode streams: OPEN takes a stream handle and completes with its engine, FRAMES joins the stream's frames, CLOSE of an
idle stream writes its END_OF_STREAM slot, a release lets held frames go or, where their request failed, completes the FRAMES with its status,
and an encoded frame becomes a record of the hatch.  A partition without an encoder answers ENGINE_ABSENT.  Which context seals what, the one
that opened the stream its END_OF_STREAM and the named one its FRAMES, is log entry 28. -/
def Obligations.EncodeStreams : Prop :=
  ∀ (s u : State) (fn q st : Nat) (d : DescRef), d.fn = fn →
    (∀ cmd ∈ [Instr.encodeOpen fn q, Instr.encodeFrames fn q, Instr.encodeClose fn q], s.starts fn q d u → d.opcode = 0x31 → u.encoders fn = [] →
      d.opd 1 1 = (match cmd with | .encodeOpen _ _ => 1 | .encodeFrames _ _ => 2 | _ => 3) →
      ∃ r, Sys2Proof.Machine.exec cmd s = .next ((u.bump fn 0x80000 31).complete d 0x01 r)) ∧
    (∀ e, s.starts fn q d u → d.opcode = 0x31 → d.opd 1 1 = 1 → d.reservedOk [(0, 28)] = true → d.opd 2 2 = st → st < 32 →
      u.ctxUsable d.ctxKey = true → u.stream fn st = none → d.opd 4 1 ≤ 1 → d.opd 5 1 = 8 ∨ d.opd 5 1 = 10 → d.opd 6 1 ≤ 2 → d.opd 7 1 ≤ 2 →
      64 ≤ d.opd 8 2 → d.opd 8 2 ≤ 4096 → d.opd 8 2 % 8 = 0 → 64 ≤ d.opd 10 2 → d.opd 10 2 ≤ 2304 → d.opd 10 2 % 8 = 0 →
      d.opd 8 2 * d.opd 10 2 ≤ 8912896 → d.opd 12 2 ≠ 0 → d.opd 14 2 ≠ 0 → d.opd 27 1 ≤ 2 →
      (d.opd 6 1 = 0 → d.opd 17 3 = 0) → (d.opd 6 1 ≠ 0 → d.opd 16 4 ≤ levelRate (d.opd 4 1)) →
      (d.opd 6 1 ≠ 2 → d.opd 20 4 = 0) → d.opd 20 4 ≤ levelRate (d.opd 4 1) →
      d.opd 8 2 * d.opd 10 2 * d.opd 12 2 ≤ 995328000 * d.opd 14 2 → u.hatchFault fn (d.opd 26 1) d.ctxKey 0 = [] →
      (u.encoders fn).find? (fun e => u.engineRoom e (d.opd 8 2 * d.opd 10 2 * d.opd 12 2) (d.opd 14 2)) = some e →
      ∃ t : State, ∃ x, Sys2Proof.Machine.exec (.encodeOpen fn q) s = .next (t.complete d 0x00 e) ∧ t.stream fn st = some x ∧ x.ctx = d.ctxKey ∧
        x.engine = e ∧ x.codec = d.opd 4 1 ∧ x.depth = d.opd 5 1 ∧ x.width = d.opd 8 2 ∧ x.height = d.opd 10 2 ∧ x.keyInterval = d.opd 24 2 ∧
        x.hatch = d.opd 26 1 ∧ x.frames = [] ∧ x.next = 0 ∧ x.busy = false ∧ x.closing = none ∧
        (∀ i, i ≠ st → i < 32 → t.stream fn i = u.stream fn i) ∧ t.mem = s.mem ∧ t.tiles = s.tiles) ∧
    (∀ x, s.starts fn q d u → u.encoders fn ≠ [] → d.opcode = 0x31 → d.opd 2 2 = st → st < 32 → u.stream fn st = some x → x.closing = none →
      (d.opd 1 1 = 2 → d.reservedOk [(0, 7), (8, 24)] = true → d.opd 6 1 < 4 → d.opd 16 4 ≠ 0 → d.opd 20 4 % 256 = 0 →
        (d.opd 6 1 % 2 = 1 → u.req d.ctxKey (d.opd 4 2) ≠ none) →
        3 * d.opd 20 4 * x.height ≤ 2 * d.opd 24 8 → u.ctxUsable d.ctxKey = true →
        (u.hatchOn fn x.hatch = true → u.slotPlain fn x.hatch = true ∨ u.hatchKey d.ctxKey ≠ none) →
        ∃ t : State, ∃ f, Sys2Proof.Machine.exec (.encodeFrames fn q) s = .next t ∧ t.stream fn st = some { x with frames := x.frames ++ [f] } ∧
          f.desc = d ∧ f.ctx = d.ctxKey ∧ f.count = d.opd 16 4 ∧ f.pitch = d.opd 20 4 ∧ f.stride = d.opd 24 8 ∧ f.src = d.opd 8 8 ∧
          f.after = (if d.opd 6 1 % 2 = 1 then some (d.opd 4 2) else none) ∧ f.forceKey = decide (2 ≤ d.opd 6 1) ∧ f.done = 0 ∧
          t.mem = s.mem ∧ t.tiles = s.tiles) ∧
      (d.opd 1 1 = 3 → d.reservedOk [(0, 4)] = true →
        (u.hatchOn fn x.hatch = true → u.slotPlain fn x.hatch = true ∨ u.hatchKey x.ctx ≠ none) →
        ∃ t : State, Sys2Proof.Machine.exec (.encodeClose fn q) s = .next t ∧
          t.stream fn st = some { x with closing := some d, busy := x.busy || x.frames.isEmpty } ∧
          (t.hatch fn x.hatch).jobs = (u.hatch fn x.hatch).jobs ++
            (if x.frames = [] ∧ x.busy = false then [⟨.close st, x.ctx, [], [], []⟩] else []) ∧ t.mem = s.mem ∧ t.tiles = s.tiles)) ∧
    (∀ x f pre post, s.stream fn st = some x → x.frames = pre ++ f :: post → (∀ g ∈ pre, g.status = none ∨ g.status = some 0x00) →
      let run := Sys2Proof.Machine.exec (.encodeFramesRelease fn st) s
      (∀ v, f.status = some v → v ≠ 0x00 → ∃ r, run =
        .next (((s.putStream fn st { x with frames := pre ++ post }).closeIfIdle fn st).complete f.desc v r)) ∧
      (pre = [] → f.status = some 0x00 → (∀ g ∈ post, g.status = none ∨ g.status = some 0x00) →
        ∃ t : State, run = .next t ∧ t.stream fn st = some { x with frames := { f with after := none, status := none } :: post } ∧
          t.mem = s.mem ∧ t.regs = s.regs ∧ t.tiles = s.tiles)) ∧
    (∀ x f fs bits faults bs bad v, s.stream fn st = some x → x.frames = f :: fs → x.busy = false → f.after = none →
      s.hubRead f.ctx (f.src + f.stride * f.done) (f.pitch * x.height * 3 / 2) faults = (bs, bad, v) →
      let key := x.needKey || (if x.keyInterval = 0 then x.next == 0 else x.next % x.keyInterval == 0) || (f.forceKey && f.done == 0)
      (x.bitsOk key bits = false → Sys2Proof.Machine.exec (.encodeFrameDone fn st bits faults) s = .next s) ∧
      (x.bitsOk key bits = true → ∃ t : State, ∃ j, Sys2Proof.Machine.exec (.encodeFrameDone fn st bits faults) s =
          .next (t.placeSlots fn x.hatch (j.slots (s.payloadBytes fn x.hatch))) ∧
        (t.hatch fn x.hatch).jobs = (s.hatch fn x.hatch).jobs ++ [j] ∧ (t.hatch fn x.hatch).owned = (s.hatch fn x.hatch).owned ∧ j.data = bits ∧
        j.ctx = f.ctx ∧ j.written = [] ∧ (j.poison = [] ↔ bad = []) ∧
        j.kind = .frame st x.next key ∧
        t.stream fn st = some { x with busy := true } ∧ t.regs = v.regs ∧ t.mem.cellar = s.mem.cellar ∧ t.tiles = s.tiles))

/-- R182, R345, R432: the domain descriptors: a start schedules the plan at its frame, a stop fixes the end mark, a resume sets the step
up for its frame, and an OP_CHANGE waits for its frame.  A start, stop or resume whose preconditions fail is refused with reason DOMAIN.  That a
stop whose AT_STEP has passed acts at the next end mark, and that one whose CTX is not the domain's is refused, are log entry 40.
R33, R345: the effect of the DOMAIN_STOPs of a domain whose plan has stopped, or waits in domain recovery: every request that lived has
retired, the device leaves the domain, and each descriptor completes with the last committed step.  That DOMAIN_ID then reads 0 is the model's
choice (log entry 63). -/
def Obligations.DomainCommands : Prop :=
  (∀ (s u : State) (fn q : Nat) (d : DescRef), s.starts fn q d u → d.fn = fn →
      let c := d.ctxKey
      (d.opcode = 0x40 → d.reservedOk [(0, 1), (4, 3), (8, 4), (16, 20)] = true →
        ∀ faults, let run := Sys2Proof.Machine.exec (.domainStart fn q faults) s
        (u.domainBad d = true → run = .next (u.complete d 0x05 0x18)) ∧
        (∀ p, u.domainBad d = false → u.startFaults c true faults = [] → (u.ctx c).plan = some p → u.markBad = false → u.latencyBad p = false →
          u.abiBad = false → ∃ t : State, run = .next t ∧
          t.domNext = some ⟨⟨d.opd 4 3, c, d.opd 8 4, false⟩, d.opd 16 8, (d.opd 24 8 + 2 ^ 64 - d.opd 16 8) % 2 ^ 64⟩ ∧
          t.link.nextEpoch = some (d.opd 8 4, d.opd 16 8) ∧ (t.ctx c).step.starting = some (some (d.opd 16 8)) ∧
          (t.ctx c).step.base = (u.ctx c).steps ∧ (t.ctx c).step.desc = some d ∧ t.dom = s.dom ∧ t.mem.cellar = s.mem.cellar ∧ t.tiles = s.tiles) ∧
        (∀ p, u.domainBad d = false → u.startFaults c true faults = [] → (u.ctx c).plan = some p → u.markBad = false →
          u.latencyBad p = true ∨ u.abiBad = true → ∃ r, run = .next ((u.readList c faults).complete d 0x11 r))) ∧
      (d.opcode = 0x41 → d.reservedOk [(0, 1), (40, 8)] = true →
        let run := Sys2Proof.Machine.exec (.domainStop fn q) s
        ((∀ m, u.dom = some m → m.ctx ≠ c) → run = .next (u.complete d 0x05 0x18)) ∧
        (∀ m, u.dom = some m → m.ctx = c → ∃ t : State, run = .next t ∧
          (t.ctx c).stopAt = some (if d.opd 40 8 ≤ (u.ctx c).steps then (u.ctx c).steps else d.opd 40 8 - 1) ∧ t.dom = s.dom ∧
          t.mem = s.mem ∧ t.tiles = s.tiles ∧ t.regs = s.regs)) ∧
      (d.opcode = 0x42 → d.reservedOk [(0, 1), (8, 4), (16, 16), (40, 8)] = true →
        let run := Sys2Proof.Machine.exec (.domainResume fn q) s
        (u.resumeBad d = true → run = .next (u.complete d 0x05 0x18)) ∧
        (∀ p, u.resumeBad d = false → (u.ctx c).weights ≠ none → (u.ctx c).plan = some p → u.usesFenced c = false → u.markBad = false →
          u.latencyBad p = false → u.abiBad = false → ∃ t : State, ∃ m, run = .next t ∧ t.dom = some m ∧ m.recovery = false ∧
          m.epoch = d.opd 8 4 ∧ m.ctx = c ∧ t.link.nextEpoch = some (d.opd 8 4, d.opd 16 8) ∧
          t.clk.offset = (d.opd 24 8 + 2 ^ 64 - d.opd 16 8) % 2 ^ 64 ∧
          (t.ctx c).step.base = d.opd 40 8 ∧ (t.ctx c).step.starting = some (some (d.opd 16 8)) ∧
          (t.ctx c).step.repeat_ = (d.opd 40 8 == (u.ctx c).lastCommit) ∧ t.mem = s.mem ∧ t.tiles = s.tiles)) ∧
      (d.opcode = 0x70 → d.reservedOk [(0, 9)] = true → d.opd 8 1 ≤ 3 → u.clk.opPend = none → d.frame + 2 ≤ d.opd 0 8 →
        u.domainMode = true ∨ u.clk.opOwner = fn →
        ∃ t : State, Sys2Proof.Machine.exec (.opChange fn q) s = .next t ∧ t.clk.opPend = some ⟨d.opd 0 8, d.opd 8 1, fn, q, d.order⟩ ∧
          t.clk.op = s.clk.op ∧ t.mem = s.mem ∧ t.tiles = s.tiles)) ∧
  (∀ (s : State) (m : Domain), s.dom = some m → s.domainStops ≠ [] → ((s.ctx m.ctx).phase ≠ .running ∨ m.recovery = true) →
      ∃ t : State, Sys2Proof.Machine.exec .domainStopEffect s =
          .next (s.domainStops.foldl (fun (u : State) e => u.complete e 0x00 (s.ctx m.ctx).lastCommit) t) ∧
        t.dom = none ∧ t.clk.offset = 0 ∧ (t.ctx m.ctx).stopAt = none ∧ (t.ctx m.ctx).phase ≠ .running ∧
        t.field 0 0x20 40 40 = 0 ∧ t.field 0 0x20 39 16 = 0 ∧ t.field 0 0x60028 0 0 = 0 ∧
        ((∀ j r, mfind (s.ctx m.ctx).reqs j = some r → r.id = j) → ∀ j r, mfind (t.ctx m.ctx).reqs j = some r → r.phase = .retired))

/-- R405 to R410: a checkpoint in order waits for its end mark; the state is captured at the snapshot, for a context that does not run at once
where it fits; its staged copy, or its write, ends the barrier, and the write of the rest completes it.  A restore whose checks pass sets the
state and, outside domain mode, schedules the start; one whose data has not all come waits, and its time-out completes it.  The bytes of the
state record are the model's layout (log entry 20), when the state is captured is log entry 27, and what poison does is log entry 77. -/
def Obligations.CheckpointsAndRestores : Prop :=
  ∀ (s u : State) (fn q c : Nat) (d : DescRef), d.fn = fn →
    (∀ areas, s.starts fn q d u → d.ctxKey = c → d.opcode = 0x50 → d.reservedOk [(0, 36), (37, 11)] = true →
      d.opd 1 1 = 1 ∨ (d.opd 1 1 = 3 ∧ u.vaultSpan fn (d.opd 8 8) (d.opd 37 3 * 2 ^ 20) = true) → d.opd 2 2 ≤ 64 →
      d.opd 8 8 % 4096 = 0 → d.opd 24 8 % 4096 = 0 →
      d.opd 32 4 = 0 ∨ (u.ctx c).params.inFree (d.opd 24 8) (d.opd 32 4 * 2 ^ 20) = true →
      (∀ a ∈ ckptAreas (hostRead areas (16 * d.opd 2 2)) (d.opd 2 2), a.1 % 4096 = 0 ∧ a.2 % 4096 = 0 ∧ a.1 + a.2 ≤ (u.ctx c).params.extentBytes) →
      u.phaseOf c = .running ∨ u.phaseOf c = .ready → u.swapBusy c = false → (u.ctx c).ckpt = none → d.opd 4 4 ≤ 2 ^ 20 →
      (u.domainMode = true → d.opd 4 4 ≠ 0) →
      (u.domainMode = true ∨ d.opd 40 8 ≠ 0 → (u.ctx c).phase = .running → (u.ctx c).steps < d.opd 40 8) → u.hatchKey c ≠ none →
      ∃ t : State, ∃ k, Sys2Proof.Machine.exec (.checkpoint fn q areas) s = .next t ∧ (t.ctx c).ckpt = some k ∧ k.desc = d ∧
        k.step = (if d.opd 40 8 = 0 then none else some (d.opd 40 8 - 1)) ∧ k.voidSteps = d.opd 4 4 ∧
        k.areas = ckptAreas (hostRead areas (16 * d.opd 2 2)) (d.opd 2 2) ∧ k.voids = none ∧ k.captured = false ∧ t.mem = s.mem ∧ t.tiles = s.tiles) ∧
    (∀ k, (s.ctx c).ckpt = some k → k.captured = false →
      ∀ faults, let run := Sys2Proof.Machine.exec (.checkpointSnapshot c faults) s
      let pages := s.ckptPages c k.areas
      let fits := ckptBytes pages ≤ k.desc.opd 37 3 * 2 ^ 20 ∧ (k.desc.opd 32 4 ≠ 0 → pages * 4096 ≤ k.desc.opd 32 4 * 2 ^ 20)
      (k.voids ≠ none ∨ ((s.ctx c).phase ≠ .running ∧ fits) → ∃ t : State, ∃ k', run = .next t ∧ (t.ctx c).ckpt = some k' ∧
        k'.captured = true ∧ k'.desc = k.desc ∧ k'.areas = k.areas ∧ k'.image = s.ckptImage c k.areas ∧ k'.recPages = s.recordPages c k.areas ∧
        k'.live = (s.ctx c).reqs.map (fun p => (p.1, p.2.desc)) ∧ k'.released = k.released ∧ t.mem.cellar = s.mem.cellar ∧ t.tiles = s.tiles ∧
        (k.poison = true → k'.poison = true) ∧ (k'.spans ≠ [] → k'.poison = true) ∧
        (s.ckptReadable c k → faults = [] → k'.spans = [] ∧ k'.poison = k.poison ∧ t.mem = s.mem ∧ t.regs = s.regs)) ∧
      (k.voids = none → (s.ctx c).phase ≠ .running → ¬ fits →
        run = .next ((s.modCtx c (fun x => { x with ckpt := none })).complete k.desc 0x05 0x01))) ∧
    (∀ k, (s.ctx c).ckpt = some k → k.captured = true → k.released = false → k.desc.opd 32 4 ≠ 0 →
      let bs := s.ckptRecord c k ++ k.image
      ∀ faults, ∃ t : State, Sys2Proof.Machine.exec (.checkpointStageCopyDone c faults) s = .next t ∧
        (t.ctx c).ckpt = some { k with released := true } ∧ t.tiles = s.tiles ∧
        ∀ ad, s.checkExtent (some c) (k.desc.opd 24 8) bs.length = .ok ad → (s.ckptReadable c k → faults = [] → t.regs = s.regs) ∧
          ∀ a, readByte t.mem.cellar a = if ad ≤ a ∧ a < ad + bs.length then bs.getD (a - ad) 0 else readByte s.mem.cellar a) ∧
    (∀ k, (s.ctx c).ckpt = some k → k.captured = true → k.desc.opd 32 4 = 0 ∨ k.released = true →
      ∀ faults, let run := Sys2Proof.Machine.exec (.checkpointWriteDone c faults) s
      (k.record = [] → (s.ctx c).phase = .running →
        (k.desc.opd 32 4 = 0 ∨ k.written = true → ∃ t : State, run = .next t ∧
          (t.ctx c).ckpt = some { k with released := true, written := true } ∧ t.mem = s.mem ∧ t.tiles = s.tiles ∧ t.regs = s.regs) ∧
        (∀ bs bad v, k.desc.opd 32 4 ≠ 0 → k.written = false →
          s.hubRead c (k.desc.opd 24 8 + 4096 * k.recPages) k.image.length faults = (bs, bad, v) → ∃ t : State, run = .next t ∧
          (t.ctx c).ckpt = some { k with image := bs, poison := k.poison || !bad.isEmpty, released := true, written := true } ∧
          t.mem.cellar = s.mem.cellar ∧ t.tiles = s.tiles ∧ t.regs = v.regs)) ∧
      (k.record ≠ [] ∨ (s.ctx c).phase ≠ .running → k.poison = true → s.ckptReadable c k → faults = [] →
        (k.desc.opd 32 4 = 0 ∨ k.written = true) → ∃ st r, ∃ t : State, 0 < st ∧ st ≤ 18 ∧ run = .next (t.complete k.desc st r) ∧
        (t.ctx c).ckpt = none ∧ t.out = s.out ∧ t.mem = s.mem ∧ t.tiles = s.tiles ∧ t.regs = s.regs) ∧
      (k.record ≠ [] ∨ (s.ctx c).phase ≠ .running → k.poison = false → s.ckptReadable c k → faults = [] →
        (k.desc.opd 32 4 = 0 ∨ k.written = true ∨
          ∃ ad, s.checkExtent (some c) (k.desc.opd 24 8 + 4096 * k.recPages) k.image.length = .ok ad) → ∃ t : State,
        run = .next (t.complete k.desc 0x00
          (ckptBytes ((if k.record = [] then k.recPages else k.record.length / 4096) + k.image.length / 4096))) ∧
        (t.ctx c).ckpt = none ∧ t.field k.desc.fn 0xA0028 47 0 = min (s.field k.desc.fn 0xA0028 47 0 + 1) (2 ^ 48 - 1) ∧
        t.mem = s.mem ∧ t.tiles = s.tiles)) ∧
    (∀ data wrapped found, s.starts fn q d u → d.ctxKey = c → d.opcode = 0x51 → d.reservedOk [(0, 2), (8, 20)] = true →
      d.opd 1 1 = 1 ∨ d.opd 1 1 = 3 → u.hatchKey c ≠ none → u.phaseOf c = .ready → (u.ctx c).reqs = [] →
      let run := Sys2Proof.Machine.exec (.restore fn q data wrapped found) s
      (u.restoreUnmapped d = true → run = .next (u.complete d 0x05 0x01)) ∧
      (∀ rest, u.restoreUnmapped d = false → u.restoreGaps d data.length = 0 :: rest → ∃ t : State, run = .next t ∧
        (t.ctx c).restores = (u.ctx c).restores ++ [d] ∧ t.field fn 0x50030 7 7 = 1 ∧ t.mem = s.mem ∧ t.tiles = s.tiles) ∧
      (u.restoreUnmapped d = false → u.restoreGaps d data.length = [] →
      let hdr := data.take 4096
      let id := (hdr.drop 8).take 16
      let n := fieldAt hdr 0x28 8
      let w := hostRead wrapped 64
      let waits := ∃ t : State, run = .next t ∧ (t.ctx c).restores = (u.ctx c).restores ++ [d] ∧ t.mem = s.mem ∧ t.tiles = s.tiles
      (data.length < 4096 → waits) ∧
      (∀ key, 4096 ≤ data.length → hdr.take 4 = [0x4C#8, 0x4D, 0x43, 0x4B] → fieldAt hdr 4 2 = 1 →
        gcmDecrypt ((u.hatchKey c).getD []) (w.take 12) id ((w.drop 12).take 32) ((w.drop 44).take 16) = some key →
        gcmDecrypt key (List.replicate 12 0xFF) (hdr.take 0xFF0) [] (hdr.drop 0xFF0) ≠ none →
        (data.length < ckptBytes n → u.restoreFails c d hdr [] false = none → waits) ∧
        (∀ pages, ckptBytes n ≤ data.length → openPages key id data n = some pages →
          let rc := readStateRec pages
          let map := (pages.drop rc.bytes).take (8 * rc.mapEntries)
          let digests := rc.reqs.filterMap (fun r => if fieldAt r.table 112 1 % 2 = 1 then some ((r.table.drop 128).take 64) else none)
          let t := u.applyRestore c hdr pages rc
          u.restoreFails c d hdr digests (u.restoreBad c map rc (mapShelves map rc.mapEntries)) = none →
          (t.ctx c).steps = fieldAt hdr 0x20 8 ∧ (t.ctx c).params.seed = BitVec.ofNat 64 (fieldAt pages 0 8) ∧
          (∀ j r, mfind (t.ctx c).reqs j = some r → r.phase ≠ .retired ∧ r.desc = none) ∧ t.tiles = s.tiles ∧
          (u.domainMode = true → run = .next (t.complete d 0x00 (fieldAt hdr 0x20 8))) ∧
          (u.domainMode = false → t.startFaults c false found = [] → u.markBad = false →
            let w := t.readList c found
            run = .next (w.scheduleStart c w.startFrame (some d))))))) ∧
    (∀ n, (s.ctx c).restores[n]? = some d → ∃ v, ∃ t : State, Sys2Proof.Machine.exec (.restoreTimeout c n) s = .next (t.complete d 0x09 v) ∧
      (t.ctx c).restores = (s.ctx c).restores.filter (fun e => e.order != d.order) ∧
      t.clk.tick = max s.clk.tick (d.start + d.opd 24 4 * 7000000) ∧ t.mem = s.mem ∧ t.tiles = s.tiles)

/-- R154, R158, R162, R345, R422, R432: plan beat 0 of a scheduled plan begins at its frame, as the unit's first beat, or in a unit whose plans
run, within the beat that begins there or at its next one; the context runs from its step number.  The start of a domain makes the device enter
it.  A replay starts every plan of the unit that waits for it.  Where an absent staging entry or a break holds the first beat back, the other
rules say what happens.  Where the mark is lost the start completes TIMING_BREAK instead.
R57, R299, R300, R422, R433: the commit of a step whose end mark has passed: with a cause against it, with a poisoned tile of the plan, or
with a draw record that is flagged poisoned or is read with poison, the step is lost and issue is to stop; otherwise the step is the last
committed one, and a repeat step leaves the last committed step as it is.  A step whose variant uses a fenced region stops its domain's plan, a
repeat step too (R427).
R58, R59, R426: a row test that finds one failing row and nothing else takes the tile's spare row where that is unused, and otherwise the
region's spare tile row, while the region has a repair slot; the repair is recorded, and with none left the region stays as it is.  What is
taken where no row fails at all, and where both spares fit, is the model's choice (log entry 64). -/
def Obligations.PlansAndSteps : Prop :=
  (∀ (s : State) (c : Nat) (faults : List SymFault), s.clk.locked = true → s.startsNow c = true →
      let u := c / 256
      let run := Sys2Proof.Machine.exec (.planStart c faults) s
      let runs := fun (t : State) => (t.ctx c).phase = .running ∧ (t.ctx c).step.starting = none ∧ (t.ctx c).steps = (s.ctx c).step.base
      let begun := fun (t : State) => (t.unit u).started = 1 ∧ (t.unit u).inBeat = true ∧ (t.unit u).debt = 0 ∧ (t.unit u).stopped = false
      (∀ f, (s.ctx c).step.starting = some (some f) → s.markBad = false →
        let code := ((s.ctx c).step.desc.map (·.opcode)).getD 0
        let s0 := if code = 0x40 then (s.domNext.map s.enterDomain).getD s else s
        let s1 := if code = 0x40 ∨ code = 0x42 then (s0.link.nextEpoch.map (fun e => s0.adoptEpoch e.1)).getD s0 else s0
        let entered := fun (t : State) => ∀ n, code = 0x40 → s.domNext = some n →
          t.dom = some n.dom ∧ t.domNext = none ∧ t.clk.offset = n.offset ∧ t.field 0 0x20 40 40 = 1 ∧ t.field 0 0x20 39 16 = n.dom.id % 2 ^ 24
        (s1.active u = [] → ∀ w, ((s1.wakeUnit u (max 1 (s1.unit u).nextSlot)).launch c 0 (code == 0x42) faults).stagingDue u false = (false, w) →
          (w.unit u).breaks = [] → ∃ t : State, run = .next t ∧ runs t ∧ begun t ∧ entered t ∧ (t.unit u).startHeld = false ∧
            (t.ctx c).step.beat0 = 0 ∧ (t.ctx c).step.desc = none) ∧
        (s1.active u ≠ [] → ((s1.unit u).inBeat && (s1.unit u).nextSlot == 1) = false →
          ∃ t : State, run = .next t ∧ runs t ∧ entered t ∧ (t.unit u).startHeld = false ∧ (t.unit u).started = (s1.unit u).started ∧
            (t.ctx c).step.beat0 = (s1.unit u).started ∧ (t.ctx c).step.desc = none) ∧
        (s1.active u ≠ [] → (s1.unit u).inBeat = true → (s1.unit u).nextSlot = 1 →
          ∀ w, (s1.launch c (s1.unit u).started (code == 0x42) faults).stagingDue u false = (false, w) → (w.unit u).breaks = [] →
          ∃ t : State, run = .next t ∧ runs t ∧ entered t ∧ (t.unit u).startHeld = false ∧ (t.unit u).started = (w.unit u).started ∧
            (t.ctx c).step.beat0 = (w.unit u).started - 1 ∧ (t.ctx c).step.desc = none)) ∧
      (∀ f, (s.ctx c).step.starting = some (some f) → s.markBad = true → run = .next (s.dropStart c 0x0B)) ∧
      ((s.ctx c).step.starting = some none → c ∈ s.running u → s.markBad = false ∨ (s.ctx c).plan.any (·.elreri) = true →
        let all := (s.running u).filter (fun k => (s.ctx k).step.starting == some none)
        let woken := s.wakeUnit u ((s.unit u).nextSlot + 1)
        ∀ w, (all.foldl (fun (v : State) k => v.launch k 0 true faults)
            { woken with clk := { woken.clk with tick := max s.clk.tick (s.nextBoundary u) } }).stagingDue u false = (false, w) →
          (w.unit u).breaks = [] → ∃ t : State, run = .next t ∧ begun t ∧ t.clk.tick = max s.clk.tick (s.nextBoundary u) ∧
            ∀ k ∈ all, (t.ctx k).phase = .running ∧ (t.ctx k).step.starting = none ∧ (t.ctx k).steps = (s.ctx k).step.base ∧
              (t.ctx k).lastCommit = (s.ctx k).lastCommit)) ∧
  (∀ (s : State) (c : Nat) (faults : List SymFault), s.faults.coreFault = false →
      let run := Sys2Proof.Machine.exec (.stepCommit c faults) s
      let clean := (∀ k ∈ s.tilesOf c, (s.tile k).poison = false) ∧ (s.drawReads c faults).1 = false
      (∀ cause, (s.ctx c).step.endDue = some cause → cause ≠ none ∨ ¬ clean → ∃ t : State, run = .next t ∧
        (t.ctx c).step.lost = some ((s.ctx c).steps - 1, cause.getD 5) ∧ (t.ctx c).step.endDue = none ∧ (t.unit (c / 256)).stopAsked = true ∧
        (t.ctx c).lastCommit = (s.ctx c).lastCommit ∧ (t.ctx c).phase = (s.ctx c).phase) ∧
      ((s.ctx c).step.endDue = some none → clean → (s.ctx c).step.repeat_ = false → ∃ t : State, run = .next t ∧
        (t.ctx c).lastCommit = (s.ctx c).steps - 1 ∧ (t.ctx c).step.endDue = none ∧ (t.ctx c).step.attempts = 0) ∧
      ((s.ctx c).step.endDue = some none → clean → (s.ctx c).step.repeat_ = true → ∃ t : State, run = .next t ∧
        (t.ctx c).lastCommit = (s.ctx c).lastCommit ∧ (t.ctx c).step.endDue = none ∧ (t.ctx c).step.repeat_ = false ∧
        (s.domainMode = true → s.usesFenced c = true → (s.ctx c).stopAt ≠ some ((s.ctx c).steps - 1) →
          (t.unit (c / 256)).stopAsked = true))) ∧
  (∀ (s : State) (k : Nat) (rows : List Nat) (elsewhere : Bool), s.faults.rowTests.contains k = true →
      let r := regionOfTile k
      let g := s.region r
      let oneRow := elsewhere = false ∧ (nub rows).length = 1 ∧ rows.headD 0 ≤ 32 ∧ g.spareRows.contains k = false
      let place := k % 64 + k / 64 * 2 ^ 6 + 2 ^ 26
      ∃ t : State, Sys2Proof.Machine.exec (.arrayRowTestDone k rows elsewhere) s = .next t ∧
        (∀ j, t.faults.rowTests.contains j = (s.faults.rowTests.contains j && j != k)) ∧ t.tiles = s.tiles ∧ t.mem = s.mem ∧
        (∀ q, q ≠ r → t.region q = s.region q) ∧
        (g.repairSlots < 4 → oneRow →
          t.region r = { g with spareRows := g.spareRows ++ [k], repairSlots := g.repairSlots + 1 } ∧
          t.faults.repairs = s.faults.repairs ++ [BitVec.ofNat 64 (place + rows.headD 0 * 2 ^ 14)]) ∧
        (g.repairSlots < 4 → ¬ oneRow → g.spareTileRow = false →
          t.region r = { g with spareTileRow := true, repairSlots := g.repairSlots + 1 } ∧
          t.faults.repairs = s.faults.repairs ++ [BitVec.ofNat 64 (place + 1 * 2 ^ 12 + k / 64 % 8 * 2 ^ 14)]) ∧
        (4 ≤ g.repairSlots ∨ (¬ oneRow ∧ g.spareTileRow = true) → t.region r = g ∧ t.faults.repairs = s.faults.repairs))

/-- R312, R320: what is due at a boundary is no longer deferred: a feed joins its request's feeds, which wakes an idle one, and a tree replaces
the one that waits; the output of a cancelled request stops at a slot boundary; and the effect point ends the drawing of a request that runs, and
retires one that is queued or whose plan does not run.
R57, R313, R314, R319: logits that a tile has sent join those of their slot and node; with all of them present, a draw at temperature 0 takes
the token of the largest logit that the mask allows, and the draw record shows it, flagged where its logits or its mask carried poison. -/
def Obligations.RequestsAtBoundaries : Prop :=
  (∀ (s : State) (c id : Nat) (r : Req), mfind (s.ctx c).reqs id = some r → (∀ j q, mfind (s.ctx c).reqs j = some q → q.id = j) →
      let m := (s.ctx c).steps
      let others := fun (t : State) => ∀ j, j ≠ id → mfind (t.ctx c).reqs j = mfind (s.ctx c).reqs j
      (∀ pre post x, (s.ctx c).phase = .running → (s.ctx c).step.endDue = none → (s.ctx c).step.starting = none →
        (s.ctx c).deferred.filter (fun p => decide (p.1 ≤ m)) = pre ++ x :: post →
        (∀ p ∈ pre ++ post, match p.2 with | .feed q _ _ => q ≠ id | .tree q _ _ => q ≠ id | .admission _ => True) →
        ∃ t : State, Sys2Proof.Machine.exec (.requestDescriptorApply c) s = .next t ∧
          (t.ctx c).deferred = (s.ctx c).deferred.filter (fun p => decide (m < p.1)) ∧ t.mem = s.mem ∧ t.tiles = s.tiles ∧
          (∀ f bs, x.2 = .feed id f bs → ∃ r', mfind (t.ctx c).reqs id = some r' ∧ r'.feeds = r.feeds ++ [f] ∧
            r'.phase = (if r.phase = .idle then .queued else r.phase) ∧ r'.pos = r.pos ∧ r'.tree = r.tree) ∧
          (∀ tr bs, x.2 = .tree id tr bs → ∃ r', mfind (t.ctx c).reqs id = some r' ∧ r'.tree = some tr ∧ r'.feeds = r.feeds ∧
            r'.phase = r.phase ∧ r'.pos = r.pos)) ∧
      (r.cancelled = true → r.stopped = false → (s.ctx c).step.endDue = none →
        ∃ t : State, Sys2Proof.Machine.exec (.cancelOutputStop c id) s = .next t ∧
          mfind (t.ctx c).reqs id = some { r with stopped := true } ∧ others t ∧ t.regs = s.regs ∧ t.mem = s.mem ∧ t.tiles = s.tiles ∧
          (∀ d at_, r.cancels.head? = some (d, at_) → s.clk.locked = true → t.clk.tick = max s.clk.tick
            (s.clk.frameStart + ((d.start - s.clk.frameStart) / s.slotTicks (c / 256) + 1) * s.slotTicks (c / 256)))) ∧
      (r.stopped = true → r.effect = none → r.phase ≠ .retired → (s.ctx c).step.endDue = none →
        s.domainMode = false ∨ (s.ctx c).destroying ≠ none ∨ (∃ p ∈ r.cancels, p.2 ≤ m + 1) →
        let run := Sys2Proof.Machine.exec (.cancelEffect c id) s
        ((s.ctx c).phase = .running → r.phase ≠ .queued → ∃ t : State, run = .next t ∧
          mfind (t.ctx c).reqs id = some { r with effect := some m, phase := .cancelling, draw := { r.draw with ended := true } } ∧
          others t ∧ t.mem = s.mem ∧ t.tiles = s.tiles) ∧
        ((s.ctx c).phase = .running → r.phase = .queued → ∃ t : State, run = .next t ∧
          (∀ r', mfind (t.ctx c).reqs id = some r' → r'.phase = .retired ∧ r'.finish = some (0x02, m) ∧ r'.effect = some m) ∧
          (t.ctx c).cancelEnds = (s.ctx c).cancelEnds ++ r.cancels.map (fun p => (p.1, m)) ∧ others t ∧ t.tiles = s.tiles) ∧
        ((s.ctx c).phase ≠ .running → ∃ t : State, run = .next t ∧
          (∀ r', mfind (t.ctx c).reqs id = some r' → r'.phase = .retired ∧ r'.finish = some (0x02, m) ∧ r'.effect = some m) ∧
          others t ∧ t.tiles = s.tiles))) ∧
  (∀ (s : State) (c e slot : Nat) (en : Engine), (s.ctx c).engine e = some en →
      (∀ k x ch, (s.tile k).sends.find? (fun y => match y.kind with | .hub _ _ => true | _ => false) = some x → x.kind = .hub 0 ch → ch % 16 = e →
        x.len ≤ x.data.length → s.ctxOfTile k = some c → (s.tile k).events = [] →
        ∃ t : State, Sys2Proof.Machine.exec (.logitDelivery k) s = .next t ∧
          (t.tile k).sends = (s.tile k).sends.filter (fun y => y.id != x.id) ∧ t.mem = s.mem ∧ t.regs = s.regs ∧
          (fieldAt x.data 7 1 ≤ 1 → fieldAt x.data 6 1 ≤ 64 → fieldAt x.data 4 2 < en.slots →
            mfind (t.ctx c).logits (logitKey e (fieldAt x.data 4 2) (fieldAt x.data 6 1)) =
              some ((mget {} (s.ctx c).logits (logitKey e (fieldAt x.data 4 2) (fieldAt x.data 6 1))).take x.data en.vocab x.poison)) ∧
          (1 < fieldAt x.data 7 1 ∨ 64 < fieldAt x.data 6 1 ∨ en.slots ≤ fieldAt x.data 4 2 → t.ctxs = s.ctxs)) ∧
      (∀ p r tok faults mask bad v, (s.ctx c).plan = some p →
        ((s.ctx c).reqsBy (fun r => r.live && r.engine == e && r.slot == some slot)).head? = some r →
        (s.ctx c).phase = .running → en.sample = true → r.last = true → r.draw.ended = false → r.phase = .active →
        r.output.take r.penWindow = [] → flt 0#32 r.temp = false →
        (if r.masked then s.hubRead c (r.recBase + 8192) ((en.vocab + 7) / 8) faults else ([], [], s)) = (mask, bad, v) →
        let lg := mget {} (s.ctx c).logits (logitKey e slot r.drawNode)
        let logit := fun (j : Nat) => (mget 0 lg.vals j : F32)
        let allowed := fun (j : Nat) => j < en.vocab ∧ (r.masked = true → (mask.getD (j / 8) 0).getLsbD (j % 8) = true)
        en.vocab ≤ lg.vals.length → allowed tok → (∀ j, allowed j → (logit j).isNaN = false ∧ logit j ≠ 0x7F800000#32) →
        (∀ j, allowed j → j ≠ tok → flt (logit j) (logit tok) = true) → logit tok ≠ 0xFF800000#32 →
        ∃ t : State, ∃ r', Sys2Proof.Machine.exec (.draw c e slot faults) s = .next t ∧ mfind (t.ctx c).reqs r.id = some r' ∧
          r'.draw.tokens = r.draw.tokens ++ [tok] ∧ r'.draw.empty = r.draw.empty ∧
          r'.draw.poisoned = (r.draw.poisoned || lg.poison || !bad.isEmpty) ∧
          (let child := r.inTree.bind (fun tr => treeChild tr.nodes r.drawNode tok)
           r'.draw.ended = child.isNone ∧ r'.draw.accepted = r.draw.accepted ++ child.toList) ∧
          readByte t.mem.cellar ((s.ctx c).base + p.drawAddr e slot) = BitVec.ofNat 8 (r.draw.tokens.length + 1) ∧
          (r.draw.tokens = [] → r.draw.accepted = [] →
            readNat t.mem.cellar ((s.ctx c).base + p.drawAddr e slot + 24) 4 = tok % 2 ^ 32) ∧ t.tiles = s.tiles))

/-- R229, R252 to R257, R262: the states of a training port: each event of training takes it on to the next state, a port with a failed lane and a
sibling folds at the end of it, a missing neighbour, a failed keying and a long path take it DOWN with their reason, and RETRAIN starts it again;
nothing outside the fabric changes.
R237: the link messages that a port in CHECK, QUARANTINE and KEYING sends: their parts, in order, at the end of its control
queue. -/
def Obligations.TrainingAndItsMessages : Prop :=
  (∀ (s : State) (p : Nat), p < 24 →
      let goes := fun (c : Instr) (st reason : Nat) => ∃ t : State, Sys2Proof.Machine.exec c s = .next t ∧ t.pstate p = st ∧
        t.field 0 (pstat p) 11 4 = reason ∧ (∀ q, q < 24 → q ≠ p → t.pstate q = s.pstate q) ∧ s.fabricOnly t
      let down := fun (c : Instr) (reason : Nat) => ∃ t : State, Sys2Proof.Machine.exec c s = .next t ∧ t.pstate p = psDown ∧
        t.field 0 (pstat p) 11 4 = reason ∧ t.field 0 0x40000 2 2 = 1 ∧ (t.lport p).ctl = [] ∧ (t.lport p).plan = [] ∧
        (t.lport p).dyn = [] ∧ (t.lport p).replay = [] ∧ s.fabricOnly t
      let due := fun (c : Instr) => ∀ t, Sys2Proof.Machine.exec c s = .next t → t.clk.tick = max s.clk.tick ((s.lport p).since + 350000000)
      (s.pstate p = psDetect →
        (∀ bad, (bad.foldl (fun (v : State) l => v.laneFail p l) s).pstate p = psDetect → goes (.lanePresenceDetected p true bad) psEqualise 0) ∧
        (∀ bad, ∃ t : State, Sys2Proof.Machine.exec (.lanePresenceDetected p false bad) s = .next t ∧ t.regs = s.regs ∧
          t.link.cables.contains (connectorOf p) = false ∧ s.fabricOnly t) ∧
        down (.detectTimeout p) reNoNeighbour ∧ due (.detectTimeout p)) ∧
      (s.pstate p = psEqualise → goes (.equaliseDone p) psAlign 0) ∧
      (s.pstate p = psAlign → goes (.codewordLock p) psCheck 0) ∧
      (s.pstate p = psKeying → down (.keyingTimeout p) reKeying ∧ due (.keyingTimeout p)) ∧
      (s.pstate p = psMeasure → 1024 ≤ (s.lport p).echoes →
        ((s.lport p).rtt ≤ rttLimit p → s.failedLanes p = 0 → goes (.measureDone p) psActive 0) ∧
        ((s.lport p).rtt ≤ rttLimit p → s.failedLanes p ≠ 0 → s.hasSibling p = true → goes (.measureDone p) psFolded 0) ∧
        (rttLimit p < (s.lport p).rtt → down (.measureDone p) reLongPath)) ∧
      (∀ fn, s.seesPort fn p = true → s.domainMode = false →
        (s.pstate p = psQuarantine → goes (.linkRetrain fn p) psCheck 0) ∧
        (s.pstate p = psDown → goes (.linkRetrain fn p) (if s.portUsable p then psDetect else psDisabled) 0) ∧
        (s.pstate p ≠ psQuarantine → s.pstate p ≠ psDown → Sys2Proof.Machine.exec (.linkRetrain fn p) s = .next s)) ∧
      (∀ fn, s.domainMode = true → Sys2Proof.Machine.exec (.linkRetrain fn p) s = .next s)) ∧
  (∀ (s : State) (p : Nat), p < 24 →
      let sends := fun (c : Instr) (sub n : Nat) (body : List Byte) => ∃ t : State, ∃ cs, Sys2Proof.Machine.exec c s = .next t ∧
        (t.lport p).ctl = (s.lport p).ctl ++ cs ∧ cs.length = n ∧ (∀ i, i < n → ∃ k, cs[i]? = some k ∧ k.kind = 0x0A ∧ k.cls = 1 ∧
          fieldAt k.data 0 1 = sub ∧ fieldAt k.data 1 1 = i ∧ fieldAt k.data 2 1 = n ∧ k.data.drop 4 = (body.drop (36 * i)).take 36) ∧
        (t.lport p).plan = (s.lport p).plan ∧ t.regs = s.regs ∧ s.fabricOnly t
      (s.pstate p = psCheck → sends (.checkMessageSend p) 3 3 (s.checkBody p)) ∧
      (s.pstate p = psQuarantine → sends (.quarantineCheckSend p) 3 3 (s.checkBody p)) ∧
      (s.pstate p = psKeying → (s.lport p).sentFinal = false → sends (.keyingMessageSend p) 4 32 (s.keyingBody p false)))

/-- R189, R237, R257, R259, R262, R369: what a complete link message does at its receiver: a check message is recorded and decides CHECK by the
first mismatch, a keying message that verifies is answered with FINAL, probes are to be echoed and echoes measured, a frame-start crate gives the
neighbour's frame and a one-way sample, counted from the nearest frame start (the model's choice, log entry 61); a message left incomplete is
discarded and counted, one discarded before not again (log entry 60).  A port that fetches the boot bundle takes any neighbour, without the tests
of CHECK and of the slice (log entry 72). -/
def Obligations.LinkMessagesReceived : Prop :=
  ∀ (s s0 : State) (p : Nat) (m : Assembly), p < 24 →
    let b := m.body
    let e : Pairing := mget {} s.link.pairing p
    (s.takeMessage p 3 (fun _ => true) = some (m, s0) → ∃ t : State, Sys2Proof.Machine.exec (.checkMessageReceive p) s = .next t ∧
      t.field 0 (pnbr p) 15 0 = fieldAt b 0 2 ∧ t.field 0 (pnbr p) 20 16 = fieldAt b 2 1 % 32 ∧
      t.field 0 (pnbr p) 36 21 = fieldAt b 10 2 ∧ t.field 0 (pnbr p) 61 61 = 1 ∧ t.field 0 (pstat p) 25 18 = fieldAt b 3 1 ∧
      s.fabricOnly t ∧ (s.pstate p ≠ psCheck → t.pstate p = s.pstate p) ∧
      (s.pstate p = psCheck → s.boot.link = some p → t.pstate p = psKeying ∧ t.field 0 (pstat p) 11 4 = 0) ∧
      (s.pstate p = psCheck → s.boot.link ≠ some p →
        let fails := fun (r : Nat) => t.pstate p = psQuarantine ∧ t.field 0 (pstat p) 11 4 = r ∧ t.field 0 0x40000 0 0 = 1
        (fieldAt b 2 1 ≠ e.port ∨ fieldAt b 0 2 ≠ e.dev → fails rePairing) ∧
        (fieldAt b 2 1 = e.port → fieldAt b 0 2 = e.dev →
          ((b.drop 16).take 64 ≠ e.hash → fails reIdentity) ∧
          ((b.drop 16).take 64 = e.hash →
            (fieldAt b 10 2 ≠ s.link.slice → fails reSlice) ∧
            (fieldAt b 10 2 = s.link.slice →
              (fieldAt b 3 1 ≠ s.field 0 0x38 39 32 → fails reVersion) ∧
              (fieldAt b 3 1 = s.field 0 0x38 39 32 → t.pstate p = psKeying ∧ t.field 0 (pstat p) 11 4 = 0)))))) ∧
    (s.takeMessage p 4 (fun _ => true) = some (m, s0) →
      let final := (s.lport p).gotFinal || decide (fieldAt b 615 1 % 2 = 1)
      let ok := s.pstate p = psKeying ∧ sha512 ((b.drop 96).take 516) = (s.lport p).nbHash ∧
        (fieldAt b 612 2 = s.link.slice ∨ s.boot.link = some p) ∧
        rsaVerify ((b.drop 96).take 512) ((b.drop 608).take 4) ((b.drop 616).take 512) (b.take 616) = true
      (¬ok → Sys2Proof.Machine.exec (.keyingMessageReceive p) s = .next s0) ∧
      (ok → ∃ t : State, Sys2Proof.Machine.exec (.keyingMessageReceive p) s = .next t ∧
        t.pstate p = (if (s.lport p).txOn = true ∧ final = true then psMeasure else psKeying) ∧
        (t.lport p).sentFinal = true ∧ (t.lport p).keyed.isSome = true ∧ (t.lport p).gotFinal = final ∧
        (t.lport p).ctl.length = (s.lport p).ctl.length + (if (s.lport p).sentFinal then 0 else 32) ∧ s.fabricOnly t)) ∧
    (s.takeMessage p 2 (fun b => fieldAt b 4 1 == 0) = some (m, s0) → ∃ t : State, Sys2Proof.Machine.exec (.probeReceive p) s = .next t ∧
      (t.lport p).toEcho = (s.lport p).toEcho ++ [(fieldAt b 5 1, m.at_)] ∧ t.pstate p = s.pstate p ∧ s.fabricOnly t) ∧
    (s.takeMessage p 2 (fun b => fieldAt b 4 1 == 1) = some (m, s0) → ∃ t : State, Sys2Proof.Machine.exec (.echoReceive p) s = .next t ∧
      (t.lport p).echoes = (s.lport p).echoes + 1 ∧ (s.lport p).rtt ≤ (t.lport p).rtt ∧
      m.at_ - mget 0 (s.lport p).probeAt (fieldAt b 5 1) - fieldAt b 12 4 ≤ (t.lport p).rtt ∧
      t.field 0 (plat p) 47 32 = min (t.lport p).rtt 65535 ∧ s.fabricOnly t ∧
      (let long := (s.pstate p = psActive ∨ s.pstate p = psFolded) ∧ rttLimit p < (t.lport p).rtt
       (long → t.pstate p = psDown ∧ t.field 0 (pstat p) 11 4 = reLongPath) ∧ (¬ long → t.pstate p = s.pstate p))) ∧
    (∀ sub key, (s.lport p).msgIn.find? (fun m => m.1 / 256 == sub && decide (m.2.got < m.2.parts)) = some (key, m) →
      ∃ t : State, Sys2Proof.Machine.exec (.linkMessageTimeout p sub) s = .next t ∧ mfind (t.lport p).msgIn key = none ∧
        t.clk.tick = max s.clk.tick (m.at_ + 700000) ∧
        t.field 0 0x40020 47 0 = (if m.dead then s.field 0 0x40020 47 0 else min (s.field 0 0x40020 47 0 + 1) (2 ^ 48 - 1)) ∧
        s.fabricOnly t) ∧
    (∀ at_ c rest, (s.lport p).fsIn = (at_, c) :: rest →
      let far := s.posOf at_ - (fieldAt c.data 28 4 : Int)
      ∃ t : State, Sys2Proof.Machine.exec (.frameStartCrateReceive p) s = .next t ∧ (t.lport p).fsIn = rest ∧
        (t.lport p).frameInfo.dev = fieldAt c.data 2 2 ∧ (t.lport p).frameInfo.epoch = fieldAt c.data 4 4 ∧
        (t.lport p).frameInfo.frame = fieldAt c.data 8 8 ∧ (t.lport p).frameInfo.arrival = at_ - s.clk.frameStart ∧
        (t.lport p).oneWay = some (match (s.lport p).oneWay with | some o => max o (reduceFrame far) | none => reduceFrame far) ∧
        t.pstate p = s.pstate p ∧ t.tiles = s.tiles ∧ t.mem = s.mem ∧
        (s.domainMode = true → s.pstate p = psActive → (t.lport p).markOff = some (reduceFrame (far - (((s.lport p).rtt / 2 : Nat) : Int)))) ∧
        (s.dom = none → s.domNext = none → s.fabricOnly t))

/-- R230 to R232, R242, R243, R250, R251, R254, R255, R420: a port in ALIGN or FOLDED, or without all its lanes, sends FILL codewords; another
resends what its neighbour asked for first, and then fills new sequenced codewords in the order of its queues; a codeword in sequence moves the
receiver on, and a group of four counts once its tag verifies; one in error or out of sequence asks for a resend, again after the round trip; a
counting interval starts a new one, and ten in a row with many replays degrade the lane with the most corrected symbols. -/
def Obligations.Codewords : Prop :=
  ∀ (s : State) (p : Nat), p < 24 →
    let x := s.lport p
    let st := s.pstate p
    let idle := st = psAlign ∨ st = psFolded ∨ x.lostLock ≠ [] ∨ (st = psActive ∧ s.failedLanes p ≠ 0)
    let send := Sys2Proof.Machine.exec (.codewordSend p) s
    (psAlign ≤ st → st ≠ psDown →
    (idle ∨ (x.resend = [] ∧ 256 ≤ x.replay.length) → ∃ t : State, ∃ w, send = .next t ∧ t.out = s.out ++ [.codeword p w] ∧
      fieldAt w 6 1 / 2 % 2 = 1 ∧ (w.drop 8).take 624 = List.replicate 624 0 ∧ fieldAt w 636 4 = crc32 (w.take 636) ∧
      (t.lport p).txSeq = x.txSeq ∧ (t.lport p).replay = x.replay ∧ t.regs = s.regs ∧ s.fabricOnly t) ∧
    (∀ w ws, ¬ idle → x.resend = w :: ws → ∃ t : State, ∃ h, send = .next t ∧
      t.out = s.out ++ [.codeword p (codewordBytes h w.body w.tag)] ∧ h.length = 8 ∧ fieldAt h 0 2 = w.seq % 2 ^ 16 ∧
      fieldAt h 6 1 / 8 % 2 = 1 ∧ (t.lport p).resend = ws ∧ (t.lport p).txSeq = x.txSeq ∧ t.regs = s.regs ∧ s.fabricOnly t) ∧
    (¬ idle → x.resend = [] → x.replay.length < 256 →
      let first := if x.fstart = true ∧ psCheck ≤ st ∧ st ≤ psActive then [s.frameStartCrate] else []
      let ctl := x.ctl.take (13 - first.length)
      ∃ t : State, ∃ w probes,
        let a := first ++ ctl ++ probes
        let plan := if st = psActive ∧ s.quiesced = false then x.plan.take (13 - a.length) else []
        let dyn := if st = psActive ∧ (s.quiesced = false ∨ isStore p = true) then
          x.dyn.take (min (13 - (a ++ plan).length) (s.openLeft p)) else []
        send = .next t ∧ t.out = s.out ++ [.codeword p w] ∧ (∀ c ∈ probes, c.kind = 0x0A) ∧ (a ++ plan ++ dyn).length ≤ 13 ∧
        fieldAt w 0 2 = x.txSeq % 2 ^ 16 ∧ fieldAt w 6 1 / 2 % 2 = 0 ∧ fieldAt w 6 1 / 4 % 2 = first.length ∧
        fieldAt w 636 4 = crc32 (w.take 636) ∧
        (x.txOn = false ∨ x.txKey = none → (w.drop 8).take 624 = positions (a ++ plan ++ dyn)) ∧
        (t.lport p).ctl = x.ctl.drop ctl.length ∧ (t.lport p).plan = x.plan.drop plan.length ∧ (t.lport p).dyn = x.dyn.drop dyn.length ∧
        (t.lport p).credits = x.credits - dyn.length ∧ (t.lport p).txSeq = (x.txSeq + 1) % 2 ^ 16 ∧
        (t.lport p).replay.map (·.crates) = x.replay.map (·.crates) ++ [a ++ plan ++ dyn] ∧ s.fabricOnly t) ∧
    (∀ cw bad corr, st ≠ psAlign → st ≠ psFolded →
      let run := Sys2Proof.Machine.exec (.codewordReceive p cw bad corr) s
      let broken := bad = true ∨ cw.length ≠ 640 ∨ crc32 (cw.take 636) ≠ fieldAt cw 636 4
      let seq := fieldAt cw 0 2
      let credited := fun (t : State) => (t.lport p).credits = x.credits + fieldAt cw 7 1 / 16 ∧ s.fabricOnly t
      (broken → ∃ t : State, run = .next t ∧ (t.lport p).nak = true ∧ (t.lport p).rxNext = x.rxNext ∧ (t.lport p).ingress = x.ingress ∧
        (t.lport p).credits = x.credits ∧ s.fabricOnly t) ∧
      (¬ broken → fieldAt cw 6 1 / 2 % 2 = 1 → ∃ t : State, run = .next t ∧ (t.lport p).nak = x.nak ∧ (t.lport p).rxNext = x.rxNext ∧
        (t.lport p).ingress = x.ingress ∧ credited t) ∧
      (¬ broken → fieldAt cw 6 1 / 2 % 2 = 0 → seq ≠ x.rxNext → ∃ t : State, run = .next t ∧ (t.lport p).nak = true ∧
        (t.lport p).rxNext = x.rxNext ∧ (t.lport p).ingress = x.ingress ∧ credited t) ∧
      (¬ broken → fieldAt cw 6 1 / 2 % 2 = 0 → seq = x.rxNext → s.blocked p = false →
        let share := (cw.drop 632).take 4
        let w : HeldWord := ⟨seq, fieldAt cw 6 1 / 16 + fieldAt cw 7 1 % 16 * 16, s.clk.tick, (cw.drop 8).take 624⟩
        let taken := fun (t : State) => run = .next t ∧ (t.lport p).nak = false ∧ (t.lport p).rxNext = (seq + 1) % 2 ^ 16 ∧ credited t
        (x.rxOn = false → ∃ t : State, taken t ∧ (t.lport p).rxAck = seq ∧ (t.lport p).ingress = x.ingress) ∧
        (x.rxOn = true → x.rxKey ≠ none → ¬ (x.rxCount % 4 = 3 ∧ x.rxHeld.length = 7) → ∃ t : State, taken t ∧
          (t.lport p).rxHeld = x.rxHeld ++ [w] ∧ (t.lport p).rxCount = x.rxCount + 1 ∧ (t.lport p).ingress = x.ingress) ∧
        (∀ key, x.rxOn = true → x.rxKey = some key → x.rxCount % 4 = 3 → x.rxHeld.length = 7 →
          let g := x.rxCount / 4 - 1
          let verifies := gcmTag (aesKeys key) (groupIv g) [] ((x.rxHeld.take 4).flatMap (·.body)) = x.rxTag ++ share
          (verifies → ∃ t : State, taken t ∧ (t.lport p).rxHeld = x.rxHeld.drop 4 ++ [w] ∧
            ((x.rxHeld.take 4).getLast?.map (·.seq)) = some (t.lport p).rxAck ∧ (t.lport p).tagFail = none) ∧
          (¬ verifies → x.tagFail ≠ some g → ∃ t : State, run = .next t ∧ (t.lport p).nak = true ∧ (t.lport p).rxHeld = [] ∧
            (x.rxHeld.head?.map (·.seq)) = some (t.lport p).rxNext ∧ (t.lport p).tagFail = some g ∧ (t.lport p).ingress = x.ingress ∧
            s.fabricOnly t) ∧
          (¬ verifies → x.tagFail = some g → ∃ t : State, run = .next t ∧ t.pstate p = psDown ∧ t.field 0 (pstat p) 11 4 = reAuth ∧
            t.field 0 0x40000 3 3 = 1 ∧ s.fabricOnly t)))) ∧
    (psCheck ≤ st → x.nakAt ≠ 0 → x.nak = false → ∃ t : State, Sys2Proof.Machine.exec (.nakRepeat p) s = .next t ∧
      (t.lport p).nak = true ∧ t.clk.tick = max s.clk.tick (x.nakAt + s.field 0 (plat p) 47 32 + 700) ∧ t.regs = s.regs ∧ s.fabricOnly t)) ∧
    (let ivs := ((x.replays, x.syms) :: x.intervals).take 10
     let many := ivs.length = 10 ∧ ∀ i ∈ ivs, 1000 < i.1
     let total := fun (l : Nat) => ((ivs.map (fun i => i.2.getD l 0)).foldl (· + ·) 0)
     ∃ t : State, Sys2Proof.Machine.exec (.replayRateInterval p) s = .next t ∧ (t.lport p).replays = 0 ∧ (t.lport p).syms = [0, 0, 0, 0] ∧
      (t.lport p).intervalAt = x.intervalAt + 7000000000 ∧ t.clk.tick = max s.clk.tick (x.intervalAt + 7000000000) ∧ s.fabricOnly t ∧
      (¬ many → (t.lport p).intervals = ivs ∧ (t.lport p).foldAt = x.foldAt ∧ t.regs = s.regs) ∧
      (many → (t.lport p).intervals = [] ∧ ∃ lane, (t.lport p).foldAt = some lane ∧ lane < 4 ∧ ∀ l, l < 4 → total l ≤ total lane))

/-- R252, R253, R254: a lane that fails is shown; a second failed one takes the port DOWN, and so does the first where an ACTIVE port has
no sibling; a global lane has 20 µs to regain lock; a port with one failed lane folds, and when the neighbour's fold message comes what it has not
delivered, from the SEQ that the message gives, goes out on the siblings: each crate on the port that routing now selects, a broadcast copy and a
fold message on the first ACTIVE sibling, in their order. -/
def Obligations.LanesAndFolds : Prop :=
  ∀ (s : State) (p lane : Nat), p < 24 → lane < 4 →
    let x := s.lport p
    let ok := s.field 0 (pstat p) 15 12
    let fails := fun (c : Instr) =>
      (ok = 15 → (s.pstate p = psActive → s.hasSibling p = true) → ∃ t : State, Sys2Proof.Machine.exec c s = .next t ∧
        t.field 0 (pstat p) 15 12 = 15 - 2 ^ lane ∧ t.pstate p = s.pstate p ∧ (t.lport p).plan = x.plan ∧ s.fabricOnly t) ∧
      (ok = 15 → s.pstate p = psActive → s.hasSibling p = false → ∃ t : State, Sys2Proof.Machine.exec c s = .next t ∧
        t.field 0 (pstat p) 15 12 = 15 - 2 ^ lane ∧ t.pstate p = psDown ∧ t.field 0 (pstat p) 11 4 = reNoSibling ∧ s.fabricOnly t) ∧
      (∀ l, l < 4 → l ≠ lane → ok = 15 - 2 ^ l → ∃ t : State, Sys2Proof.Machine.exec c s = .next t ∧ t.pstate p = psDown ∧
        t.field 0 (pstat p) 11 4 = reLanes ∧ (t.lport p).plan = [] ∧ s.fabricOnly t)
    (isGlobal p = false → psAlign ≤ s.pstate p → s.pstate p < psDown → fails (.laneLockLoss p lane)) ∧
    (isGlobal p = true → psAlign ≤ s.pstate p → s.pstate p < psDown →
      (ok / 2 ^ lane % 2 = 1 → (∀ k, (lane, k) ∉ x.lostLock) → ∃ t : State, Sys2Proof.Machine.exec (.laneLockLoss p lane) s = .next t ∧
        (t.lport p).lostLock = x.lostLock ++ [(lane, s.clk.tick)] ∧ t.regs = s.regs ∧ s.fabricOnly t) ∧
      (∀ k, x.lostLock.find? (fun e => e.1 == lane) = some (lane, k) → fails (.laneRelockTimeout p lane) ∧
        ∀ t, Sys2Proof.Machine.exec (.laneRelockTimeout p lane) s = .next t → t.clk.tick = max s.clk.tick (k + 140000))) ∧
    ((∀ k, (lane, k) ∈ x.lostLock → s.clk.tick ≤ k + 140000) →
      ∃ t : State, Sys2Proof.Machine.exec (.laneLockRegained p lane) s = .next t ∧
        (t.lport p).lostLock = x.lostLock.filter (fun e => e.1 != lane) ∧ t.regs = s.regs ∧ s.fabricOnly t) ∧
    (s.pstate p = psActive → s.failedLanes p = 1 → s.hasSibling p = true → ∃ t : State, Sys2Proof.Machine.exec (.linkFold p) s = .next t ∧
      t.pstate p = psFolded ∧ t.field 0 0x40000 1 1 = 1 ∧ (t.lport p).ctl = [] ∧ (t.lport p).plan = [] ∧ (t.lport p).dyn = [] ∧
      (t.lport p).replay = [] ∧ (t.lport p).stranded = x.unsent ∧ s.fabricOnly t) ∧
    (∀ q m s1, s.takeMessage q 5 (fun _ => true) = some (m, s1) →
      s.pstate p = psFolded ∨ (s.pstate p = psActive ∧ s.hasSibling p = true) →
      (s.siblings q).find? (fun r => s.field 0 (pnbr r) 61 61 == 1 && s.field 0 (pnbr r) 20 16 == fieldAt m.body 0 1 % 32 &&
        s.observed r == s.observed q) = some p →
      let s2 := if s.pstate p = psActive then s1.foldPort p else s1
      let left := ((s2.lport p).stranded.filter (fun e => decide ((e.1 + 2 ^ 16 - fieldAt m.body 2 2) % 2 ^ 16 < 2 ^ 15))).map (·.2)
      let sibling := (s2.siblings p).find? (fun r => s2.pstate r == psActive)
      let way : Crate → Option Nat := fun c => if c.isBcast then sibling else
        match s2.routeOf c (s2.storesOf (s2.portPart p)) with | .port r => some r | _ => none
      ∃ t : State, Sys2Proof.Machine.exec (.foldStateReceive q) s = .next t ∧ (t.lport p).stranded = [] ∧ t.pstate p = psFolded ∧ s.fabricOnly t ∧
        (s.pstate p = psActive → (s2.lport p).stranded = x.unsent) ∧
        ((∀ c ∈ left, c.kind ≠ 0x08 ∧ c.kind ≠ 0x09 ∧ c.kind ≠ 0x0A) → (∀ r, (s2.lport r).queued + left.length ≤ egressSize r) → ∀ r,
          (t.lport r).ctl = (s2.lport r).ctl ∧
          (t.lport r).plan = (s2.lport r).plan ++ left.filter (fun c => way c == some r && decide (c.cls < 2)) ∧
          (t.lport r).dyn = (s2.lport r).dyn ++ left.filter (fun c => way c == some r && decide (2 ≤ c.cls))) ∧
        (∀ h c r, left = [h, c] → h.kind = 0x08 → c.kind = 0x09 → way h = some r → way c = some r → (s2.lport r).queued + 2 ≤ egressSize r →
          (t.lport r).ctl = (s2.lport r).ctl ++ [h, c]) ∧
        (∀ c r, left = [c] → c.kind = 0x0A → sibling = some r → ∃ k, (t.lport r).ctl = (s2.lport r).ctl ++ [k] ∧ k.kind = 0x0A ∧
          fieldAt k.data 0 1 = 5 ∧ k.data.drop 4 = ((c.data.drop 4).take 36 ++ List.replicate 36 0).take 36))

/-- R122, R240, R241, R242, R245, R247: crates that enter the device: one for another device goes on an egress queue by its class, where a
dynamic or broadcast crate waits for room and a plan crate that finds none is discarded and counted, and one that finds no way is discarded,
counted and reported; a crate for this device is tallied for its source, and a plan crate is delivered, an F crate held; a tally waits for its
crate; and a crate of no valid flow is discarded and counted.  A tile's crate is routed, tallied and sent, or delivered here.  That a transit
crate does not cross closed links, and serves no other partition's port, is log entry 62; that a plan crate to the tile's own device needs no
stream entry, log entry 37; what fills a queue for it, log entry 80. -/
def Obligations.CrateRouting : Prop :=
  ∀ (s : State) (p : Nat) (c : Crate) (rest : List Crate), p < 24 → c.isBcast = false →
    let queued := fun (t : State) (q : Nat) =>
      let control := c.kind = 0x0A ∨ c.kind = 0x09
      (t.lport q).ctl = (s.lport q).ctl ++ (if control then [c] else []) ∧
      (t.lport q).plan = (s.lport q).plan ++ (if ¬ control ∧ c.cls < 2 then [c] else []) ∧
      (t.lport q).dyn = (s.lport q).dyn ++ (if ¬ control ∧ 2 ≤ c.cls then [c] else [])
    let lost := fun (t : State) => t.field 0 0x40020 47 0 =
        (if c.kind = 0 then s.field 0 0x40020 47 0 else min (s.field 0 0x40020 47 0 + 1) (2 ^ 48 - 1)) ∧ t.field 0 0x40000 5 5 = 1 ∧
      t.link.inbox = s.link.inbox
    ((s.lport p).ingress = c :: rest →
      let run := Sys2Proof.Machine.exec (.crateIngress (.port p)) s
      let route := s.routeOf c (s.storesOf (s.portPart p))
      (∀ q, route = .port q → s.crossesOpen p q c = true → (s.lport q).queued < egressSize q →
        ∃ t : State, run = .next t ∧ (t.lport p).ingress = rest ∧ queued t q ∧ t.regs = s.regs ∧ s.fabricOnly t) ∧
      (∀ q, route = .port q → s.crossesOpen p q c = true → 2 ≤ c.cls → egressSize q ≤ (s.lport q).queued → run = .next s) ∧
      (∀ q, route = .port q → s.crossesOpen p q c = true → c.kind = 0x01 → c.cls = 0 → egressSize q ≤ (s.lport q).ctl.length + (s.lport q).plan.length →
        ∃ t : State, run = .next t ∧ (t.lport p).ingress = rest ∧ t.field 0 0x40020 47 0 = min (s.field 0 0x40020 47 0 + 1) (2 ^ 48 - 1) ∧
          (∀ r, r ≠ p → t.lport r = s.lport r) ∧ s.fabricOnly t) ∧
      (route = .none ∨ (∃ q, route = .port q ∧ s.crossesOpen p q c = false) →
        ∃ t : State, run = .next t ∧ (t.lport p).ingress = rest ∧ lost t ∧ s.fabricOnly t) ∧
      (route = .here → c.tallied = true → c.kind ≠ 0x0D ∨ s.boot.link ≠ some p →
        let flow := s.reg 0 (0x4A000 + 8 * c.stream)
        let src := getBits flow 15 0
        let counted := fun (t : State) => (t.lport p).ingress = rest ∧
          t.recvTally (dieOfPort p) src = (s.recvTally (dieOfPort p) src + 1) % 2 ^ 32 ∧ t.tiles = s.tiles ∧ t.ctxs = s.ctxs
        (getBits flow 16 16 = 1 → c.fence = false → c.kind = 0x01 → s.portServes p c.region = true → ∃ t : State, run = .next t ∧ counted t ∧
          t.link.inbox = s.link.inbox ++ [(p, c)] ∧ t.link.held = s.link.held ∧ t.regs = s.regs ∧ s.fabricOnly t) ∧
        (getBits flow 16 16 = 1 → c.fence = true → s.blocked p = false → ∃ t : State, run = .next t ∧ counted t ∧
          t.link.inbox = s.link.inbox ∧ t.link.held = s.link.held ++ [⟨c, p, dieOfPort p, src, s.clk.tick, false, false⟩] ∧ t.regs = s.regs ∧
          s.fabricOnly t) ∧
        (getBits flow 16 16 = 0 → ∃ t : State, run = .next t ∧ (t.lport p).ingress = rest ∧ t.link.inbox = s.link.inbox ∧
          t.link.held = s.link.held ∧ t.link.received = s.link.received ∧
          t.field 0 0x40018 47 0 = min (s.field 0 0x40018 47 0 + 1) (2 ^ 48 - 1) ∧ s.fabricOnly t)) ∧
      (route = .here → c.kind = 0x08 → ∃ t : State, run = .next t ∧ (t.lport p).ingress = rest ∧
        t.link.fences = s.link.fences ++ [(fieldAt c.data 8 2, fieldAt c.data 4 2, fieldAt c.data 6 2, fieldAt c.data 0 4)] ∧
        t.regs = s.regs ∧ s.fabricOnly t)) ∧
    (∀ k x h, (s.tile k).sends.find? (fun y => match y.kind with | .crate _ => true | _ => false) = some x → x.kind = .crate h →
      x.len ≤ x.data.length → (s.tile k).events = [] → c = ⟨if x.poison then h ||| BitVec.ofNat 64 (2 ^ 32) else h, x.data⟩ →
      let run := Sys2Proof.Machine.exec (.crateIngress (.tile k)) s
      let route := s.routeOf c (s.storesOf (s.partOfRegion (regionOfTile k)))
      let gone := fun (t : State) => (t.tile k).sends = (s.tile k).sends.filter (fun y => y.id != x.id) ∧ (∀ j, j ≠ k → t.tile j = s.tile j) ∧
        t.mem = s.mem
      (∀ q, route = .port q → s.portServes q (regionOfTile k) = true → c.fence = false → (s.lport q).queued < egressSize q →
        ∃ t : State, run = .next t ∧ gone t ∧ queued t q ∧ t.regs = s.regs ∧
          t.sentTally (dieOfPort q) c.dst =
            (if c.tallied then (s.sentTally (dieOfPort q) c.dst + 1) % 2 ^ 32 else s.sentTally (dieOfPort q) c.dst)) ∧
      (∀ q, route = .port q → s.portServes q (regionOfTile k) = true → 2 ≤ c.cls → egressSize q ≤ (s.lport q).queued → run = .next s) ∧
      (route = .none ∨ (∃ q, route = .port q ∧ s.portServes q (regionOfTile k) = false) → ∃ t : State, run = .next t ∧ gone t ∧ lost t) ∧
      (route = .here → c.kind = 0x01 → c.cls = 0 → ∃ t : State, run = .next t ∧ gone t ∧ t.link.inbox = s.link.inbox ++ [(24, c)] ∧ t.regs = s.regs))

/-- R246 to R248, R428, R429: a held F crate is delivered once its tally has come and its source's crates have been written, and only then; one
held for more than 1 ms is reported; a new fault message of the device's domain is noted and sent on, its plan is to stop, or the device waits in
recovery at once where it does not run, and any other is discarded.  (That EVT_DOMAIN.FAULTS counts the message that brings the recovery as its
first is log entry 81.) -/
def Obligations.FencesAndFaultMessages : Prop :=
  ∀ (s : State),
    (∀ n h, s.link.held[n]? = some h →
      (s.fenceMet h = true → h.crate.kind = 0x01 ∨ h.crate.kind = 0x09 → (h.port < 24 → h.crate.kind = 0x01 → s.portServes h.port h.crate.region = true) →
        ∃ t : State, Sys2Proof.Machine.exec (.fenceRelease n) s = .next t ∧
        t.link.inbox = s.link.inbox ++ (if h.crate.kind = 0x01 then [(h.port, h.crate)] else []) ∧
        t.link.faultIn = s.link.faultIn ++ (if h.crate.kind = 0x09 then [(h.port, h.crate)] else []) ∧
        t.link.held = s.link.held.eraseIdx n ∧ (h.past = false → t.link.fences.length + 1 = s.link.fences.length) ∧ t.regs = s.regs ∧
        s.fabricOnly t) ∧
      (s.fenceMet h = false → Sys2Proof.Machine.exec (.fenceRelease n) s = .next s) ∧
      (h.stalled = false → ∃ t : State, Sys2Proof.Machine.exec (.fenceStall n) s = .next t ∧ t.link.held[n]? = some { h with stalled := true } ∧
        t.link.held.length = s.link.held.length ∧ t.clk.tick = max s.clk.tick (h.at_ + 7000001) ∧ t.field 0 0x40000 4 4 = 1 ∧
        s.fabricOnly t)) ∧
    (∀ p c rest, s.link.faultIn = (p, c) :: rest →
      let run := Sys2Proof.Machine.exec .faultMessageReceive s
      let key := (fieldAt c.data 2 2, fieldAt c.data 4 4)
      (s.dom = none → run = .next { s with link := { s.link with faultIn := rest } }) ∧
      (∀ d, s.dom = some d →
        fieldAt c.data 0 1 ≠ 1 ∨ fieldAt c.data 8 3 ≠ d.id ∨ s.faults.seen.contains key = true →
        run = .next { s with link := { s.link with faultIn := rest } }) ∧
      (∀ d, s.dom = some d → fieldAt c.data 0 1 = 1 → fieldAt c.data 8 3 = d.id → s.faults.seen.contains key = false →
        ∃ t : State, run = .next t ∧ t.faults.seen.contains key = true ∧ t.link.faultIn = rest ∧ t.tiles = s.tiles ∧ t.mem = s.mem ∧
          t.field 0 0x60028 47 32 = min ((if d.recovery = true ∨ s.faults.told ≠ none then s.field 0 0x60028 47 32 else 0) + 1) 65535 ∧
          (∀ q, q < 22 → q ≠ p → s.pstate q = psActive → (s.lport q).queued + 1 < egressSize q → ∃ a b,
            (t.lport q).ctl = (s.lport q).ctl ++ [a, b] ∧ a.kind = 0x08 ∧ b.kind = 0x09 ∧ fieldAt b.data 2 2 = key.1 ∧ fieldAt b.data 4 4 = key.2 ∧
            fieldAt b.data 1 1 = fieldAt c.data 1 1 ∧ fieldAt b.data 11 1 = (fieldAt c.data 11 1 + 1) % 256) ∧
          (d.recovery = false → s.faults.told = none → (s.unit 0).stopped = false → s.running 0 ≠ [] →
            (t.unit 0).stopAsked = true ∧ t.faults.told = some (fieldAt c.data 1 1, key.1) ∧ t.dom = s.dom) ∧
          (d.recovery = false → s.faults.told = none → (s.unit 0).stopped = true ∨ s.running 0 = [] →
            t.dom = some { d with recovery := true } ∧ t.field 0 0x60028 8 1 = fieldAt c.data 1 1 ∧ t.field 0 0x60028 24 9 = key.1)))

/-- R443, R447, R448, R449, R451, R452: input power: the module comes up unless a latched shutdown holds it off, its rails begin to rise, and its
fused registers then show the fuses; a shutdown takes it down, a shorted rail at once, and records its cause in the lowest slot of the power
history that holds none, if there is one, where an interrupted recording leaves a cause that no cause has.  Where the module stays off, a
removal still ends the mask of new slots.  What a removal is to POWER_UP, which causes are recorded while the rails fall, and an over-voltage of a
module that is off, are log entry 42; that the memories read as at reset after a power-up is log entry 5. -/
def Obligations.PowerUpAndShutdown : Prop :=
  ∀ s : State,
    let up := fun (c : Instr) => ∃ t : State, Sys2Proof.Machine.exec c s = .next t ∧ t.power.good = false ∧ t.power.rising = true ∧
      t.power.rails = [] ∧ t.power.latched = [] ∧ t.power.fired = [] ∧
      t.boot.active = true ∧ t.boot.rom = false ∧ t.boot.cause = 0 ∧ t.boot.presented = false ∧ t.boot.fuses = s.boot.fuses.report ∧
      t.reg 0 0x08 = BitVec.ofNat 64 s.boot.fuses.serial ∧ t.reg 0 0x10 = s.boot.fuses.shape ∧ t.field 0 0 27 24 = s.boot.fuses.grade % 16 ∧
      t.tiles = [] ∧ t.ctxs = [] ∧ t.mem = State.reset.mem ∧ t.link = State.reset.link ∧ t.host = State.reset.host ∧
      t.clk = State.reset.clk ∧ t.dom = none ∧ t.pending = s.pending
    let off := fun (c : Instr) => ∃ t : State, Sys2Proof.Machine.exec c s = .next t ∧ t.power.good = false ∧ t.power.rising = false ∧
      t.regs = [] ∧ t.tiles = [] ∧ t.ctxs = [] ∧ t.boot.active = false ∧ t.boot.presented = false ∧ t.pending = s.pending
    (∀ gone, s.railsOn = false → (s.power.latched = [] ∨ 1000 ≤ gone → up (.powerUp gone)) ∧
      (s.power.latched ≠ [] → gone < 1000 → ∃ t : State, Sys2Proof.Machine.exec (.powerUp gone) s = .next t ∧
        t = { s with power := { s.power with reversed := false, fresh := t.power.fresh } } ∧
        t.power.fresh = if 0 < gone then 0 else s.power.fresh)) ∧
    (s.railsOn = false → s.power.lost = true ∨ s.power.latched ≠ [] →
      ((∀ c ∈ s.power.latched, c ≠ 3 ∧ c ≠ 4 ∧ c ≠ 5) → up .inputInRange) ∧
      ((∃ c ∈ s.power.latched, c = 3 ∨ c = 4 ∨ c = 5) → Sys2Proof.Machine.exec .inputInRange s = .next s)) ∧
    (s.railsOn = true → off .inputLost ∧ ∀ t, Sys2Proof.Machine.exec .inputLost s = .next t →
      t.power.lost = true ∧ t.power.latched = s.power.latched ∧ t.boot.fuses = s.boot.fuses ∧ t.power.rails = s.power.rails) ∧
    (∀ cut c cause detail, (c, cause, detail) ∈ [(Instr.reversedInput cut, 1, 0), (.overvoltage cut, 2, 0), (.overcurrent cut, 4, 0)] ++
        (List.range 8).map (fun r => (Instr.railShort r cut, 3, r)) ++ (List.range 3).map (fun d => (Instr.thermalShutdown d cut, 5, d)) →
      ((∃ v, cut = some v ∧ v % 16 ≤ 5) → Sys2Proof.Machine.exec c s = .next s) ∧
      ((∀ v, cut = some v → 5 < v % 16) →
        cause = 1 ∨ cause = 2 ∧ s.power.latched.contains 2 = false ∨
          (s.railsOn = true ∨ s.power.rails ≠ []) ∧ (cause = 4 → s.power.limited = true) →
        off c ∧ ∀ t, Sys2Proof.Machine.exec c s = .next t → t.power.latched = s.power.latched ++ (if cause = 1 then [] else [cause]) ∧
          t.power.rails = (if cause = 1 then [] else if cause = 3 then s.power.rails.filter (fun r => r != detail) else s.power.rails) ∧
          let old : Nat → BitVec 8 := mget 0 s.boot.fuses.history
          let new : Nat → BitVec 8 := mget 0 t.boot.fuses.history
          let code := match cut with | none => cause + 16 * detail | some v => v % 16 + v / 16 % 8 * 16
          (∀ i, i < 16 → old i &&& 0x0F = 0 → (∀ j, j < i → old j &&& 0x0F ≠ 0) →
            new i = old i ||| BitVec.ofNat 8 code ∧ ∀ j, j ≠ i → new j = old j) ∧
          ((∀ i, i < 16 → old i &&& 0x0F ≠ 0) → t.boot.fuses = s.boot.fuses)))

/-- R443, R444, R446, R447, R453, R455, R456, R462, R464, R465: what the power stage measures: each event's quantity in its register, its status
bit in every function's copy, and neither the tiles, the memories, the contexts nor the links.  The current limit is the lesser of 85 A and what
draws 3,000 W; a detector that has fired fires again only after a reading inside its re-arming level; the power cap takes the values a write may
set, the lower of two at once, and five averages in a row above it ask for a lower operating point; and the sensors answer.  Which register an
event's reading goes into is log entry 45, and the answers' form log entry 43. -/
def Obligations.PowerEvents : Prop :=
  ∀ (s : State) (n back : Nat), s.power.good = true →
    let tells := fun (c : Instr) (bit : Nat) (ok : State → Prop) => ∃ t : State, Sys2Proof.Machine.exec c s = .next t ∧
      (∀ f ∈ s.functions, t.field f 0x90000 bit bit = 1) ∧ ok t ∧ t.tiles = s.tiles ∧ t.mem = s.mem ∧ t.ctxs = s.ctxs ∧ t.link = s.link
    let fires := fun (c : Instr) (bit : Nat) (armed : Prop) (ok : State → Prop) =>
      (s.power.fired.contains bit = false ∨ armed → tells c bit (fun t => t.power.fired.contains bit = true ∧ ok t)) ∧
      (s.power.fired.contains bit = true → ¬ armed → Sys2Proof.Machine.exec c s = .next s)
    (n < 38000 → fires (.inputLow n back) 0 (38500 < back) (fun t => t.field 0 0x90018 15 0 = n)) ∧
    (50000 < n → fires (.inputHigh n back) 1 (back < 49500) (fun t => t.field 0 0x90018 15 0 = n % 2 ^ 16)) ∧
    (∀ mv, let limit := if mv = 0 then 85000 else min 85000 (3000000000 / mv)
      (limit ≤ n → tells (.currentLimit mv n) 2 (fun t => t.field 0 0x90018 31 16 = n / 10 % 2 ^ 16 ∧ t.field 0 0x90018 15 0 = mv % 2 ^ 16 ∧
        t.power.limited = true)) ∧
      (n < limit → Sys2Proof.Machine.exec (.currentLimit mv n) s = .next s)) ∧
    (2000 < n → tells (.rampExceeded n) 3 (fun _ => True)) ∧ (n ≤ 2000 → Sys2Proof.Machine.exec (.rampExceeded n) s = .next s) ∧
    (∀ src, 105 ≤ n → src ≤ 66 → fires (.thermalHigh n src back) 4 (coolerThan back 100 = true) (fun t => t.field 0 0x90030 7 0 = n % 2 ^ 8 ∧
      t.field 0 0x90030 14 8 = src ∧ t.power.thermalAt = some s.clk.tick)) ∧
    (∀ k, s.power.thermalAt = some k → ∃ t : State, Sys2Proof.Machine.exec .thermalHighRepeat s = .next t ∧
      t.clk.tick = max s.clk.tick (k + 7000000000) ∧ t.power.thermalAt = some t.clk.tick ∧ t.tiles = s.tiles ∧ t.mem = s.mem) ∧
    (s.power.thermalAt = none → Sys2Proof.Machine.exec .thermalHighRepeat s = .next s) ∧
    (45 < n → fires (.coolantHot n back) 5 (coolerThan back 45 = true) (fun t => t.field 0 0x90030 23 16 = n % 2 ^ 8)) ∧
    (n < 17 → fires (.coolantCold n back) 6 (coolerThan back 18 = false) (fun t => t.field 0 0x90030 23 16 = n)) ∧
    (∀ avgs, 5 ≤ avgs.length → (∀ a ∈ avgs, a ≤ 3000) → (∀ a ∈ avgs.drop (avgs.length - 5), s.capW < a) →
      tells (.powerCapExceeded avgs) 7 (fun t => t.power.capAt = some t.clk.tick ∧ some (t.field 0 0x90018 47 32) = avgs.getLast? ∧
        t.field 0 0x90020 15 0 = avgs.foldl max (s.field 0 0x90020 15 0) ∧
        (∀ k, s.power.capAt = some k → (∀ a ∈ avgs, s.capW < a) → t.clk.tick = max s.clk.tick (k + 7000000000)) ∧
        (s.power.capAt = none ∨ (∃ a ∈ avgs, a ≤ s.capW) → t.clk.tick = s.clk.tick))) ∧
    (∀ fn, ∀ v : W64,
      let w := getBits v 11 0
      let fits := s.functions.contains fn = true ∧ s.isOwner fn = true ∧ 500 ≤ w ∧ w ≤ 3000
      let caps := fun (lo : Bool) (other : Option Nat) (cap : Nat) => ∃ t : State,
        Sys2Proof.Machine.exec (.pwrCapWrite fn v lo other) s = .next t ∧ t.capW = cap ∧ t = { s with regs := t.regs }
      (fits → caps true none w ∧ (∀ x, 500 ≤ x → x ≤ 3000 → caps true (some x) (min w x)) ∧
        ∀ x, x < 500 ∨ 3000 < x → caps true (some x) w) ∧
      (∀ lo, ¬ fits ∨ lo = false → caps lo none s.capW ∧ ∀ x, 500 ≤ x → x ≤ 3000 → caps lo (some x) x)) ∧
    (s.clk.locked = true →
      (∃ t : State, Sys2Proof.Machine.exec (.pldmPowerCapSet n) s = .next t ∧ t.capW = (if 500 ≤ n ∧ n ≤ 3000 then n else s.capW) ∧
        t.out = s.out ++ [.response none .ok] ∧ t.tiles = s.tiles ∧ t.mem = s.mem) ∧
      (∀ id src, 1 ≤ id → id ≤ 8 → id ≠ 4 → sensorOk id n src = true → ∃ t : State, Sys2Proof.Machine.exec (.pldmSensorRead id n src) s = .next t ∧
        t.out = s.out ++ [.response none (.reading n)] ∧ t.tiles = s.tiles ∧ t.mem = s.mem ∧ t.ctxs = s.ctxs ∧
        (id = 1 → t.field 0 0x90018 15 0 = n % 2 ^ 16 ∧ (38500 < n → t.power.fired.contains 0 = false) ∧
          (n < 49500 → t.power.fired.contains 1 = false)) ∧
        (id = 2 → t.field 0 0x90018 31 16 = n / 10 % 2 ^ 16 ∧ (n < currentLimitMa (s.field 0 0x90018 15 0) → t.power.limited = false)) ∧
        (id = 3 → t.field 0 0x90018 47 32 = n ∧ t.field 0 0x90020 15 0 = max n (s.field 0 0x90020 15 0) ∧ (n ≤ s.capW → t.power.capAt = none)) ∧
        (id = 5 → t.field 0 0x90030 7 0 = n % 2 ^ 8 ∧ t.field 0 0x90030 14 8 = src ∧ (coolerThan n 105 = true → t.power.thermalAt = none) ∧
          (coolerThan n 100 = true → t.power.fired.contains 4 = false))) ∧
      (∀ src, ∃ t : State, Sys2Proof.Machine.exec (.pldmSensorRead 4 n src) s = .next t ∧
        t.field 0 0x90028 47 0 = min (max n (s.field 0 0x90028 47 0)) (2 ^ 48 - 1) ∧
        t.out.getLast? = some (.response none (.reading (t.field 0 0x90028 47 0))) ∧ t.tiles = s.tiles ∧ t.mem = s.mem ∧ t.ctxs = s.ctxs) ∧
      (∀ src, Sys2Proof.Machine.exec (.pldmSensorRead 20 n src) s = .next (s.emit (.response none (.reading s.pldmState))) ∧
        Sys2Proof.Machine.exec (.pldmSensorRead 30 n src) s = .next (s.emit (.response none (.reading s.capW))) ∧
        ∀ id, id = 0 ∨ 8 < id → id ≠ 20 → id ≠ 30 → Sys2Proof.Machine.exec (.pldmSensorRead id n src) s = .next (s.emit (.response none .error))))

/-- R363, R366, R368, R369, R370: the boot sequence: the ROM's start shows the fuses, a cold boot waits and a warm one fetches from the kept
source; where PERST# is held since power-up the ROM only starts the management port; the boot function changes its port; GO restarts the
fetch; a fetch that fails or takes too long holds with FETCH, a bundle that fails a check with that check's step and code, a fuse that fails
with FUSE, and a bundle that passes is presented.  The boot ends when training has finished on every port.  What STAGE and FAIL show in a
hold and at GO, and an unaligned BASE, are log entry 44; a PERST# held since power-up is log entry 49. -/
def Obligations.BootSteps : Prop :=
  ∀ s : State, s.boot.active = true →
    let src := s.field 0 0x1200 1 0
    let holds := fun (c : Instr) (step code : Nat) => ∃ t : State, Sys2Proof.Machine.exec c s = .next t ∧ t.field 0 0x1000 3 0 = step ∧
      t.field 0 0x1000 11 4 = code ∧ t.field 0 0x1000 12 12 = 1 ∧ t.boot.fetching = none ∧ t.boot.presented = false ∧ t.tiles = s.tiles
    (s.power.good = true ∨ s.power.rising = true → s.boot.rom = false → s.boot.perst = none → ∃ t : State,
      Sys2Proof.Machine.exec .bootRomStart s = .next t ∧ t.boot.rom = true ∧ t.power.good = true ∧ t.power.rising = false ∧
      t.clk.locked = true ∧ t.field 0 0x1000 3 0 = 3 ∧ t.reg 0 0x08 = BitVec.ofNat 64 s.boot.fuses.serial ∧
      t.reg 0 0x10 = s.boot.fuses.shape ∧ t.field 0 0 27 24 = s.boot.fuses.grade % 16 ∧
      (s.boot.cause = 0 → t.field 0 0x1000 12 12 = 1 ∧ t.boot.fetching = s.boot.fetching) ∧
      (s.boot.cause ≠ 0 → s.sourceBad = false → t.boot.fetching = some t.clk.tick ∧ (src ≠ 0 → t.boot.link = some (21 + src))) ∧
      (s.boot.cause ≠ 0 → s.sourceBad = true → t.field 0 0x1000 12 12 = 1 ∧ t.field 0 0x1000 11 4 = 1 ∧ t.boot.fetching = none) ∧
      t.tiles = s.tiles ∧ t.ctxs = s.ctxs) ∧
    (s.power.good = true ∨ s.power.rising = true → s.boot.rom = false → s.boot.perst.isSome = true → s.clk.locked = false → ∃ t : State,
      Sys2Proof.Machine.exec .bootRomStart s = .next t ∧ t.power.good = true ∧ t.clk.locked = true ∧ t.boot.rom = false ∧ t.boot.active = true ∧
      t.boot.perst = s.boot.perst ∧ t.boot.fetching = none ∧ t.boot.fuses = s.boot.fuses ∧ t.out = s.out) ∧
    (s.power.good = true → s.boot.presented = false → s.boot.perst = none → s.boot.port = 0 → s.field 0 0x10008 0 0 = 0 →
      ∃ t : State, Sys2Proof.Machine.exec .bootPortSwitch s = .next t ∧
      t.boot.port = 1 ∧ t.clk.tick = max s.clk.tick (s.boot.trigger + 7000000000) ∧ t.regs = s.regs ∧ t.tiles = s.tiles ∧ t.mem = s.mem) ∧
    (∀ v : W64, v.getLsbD 3 = true → s.power.good = true → s.clk.locked = true → s.boot.perst.isSome = true ∨ s.field 0 0x1000 12 12 = 0 →
      ∃ t : State, Sys2Proof.Machine.exec (.bootGo true v) s = .next t ∧ t.field 0 0x1200 1 0 = getBits v 1 0 ∧
        t.field 0 0x1200 2 2 = getBits v 2 2 ∧ t = { s with regs := t.regs } ∧ t.reg 0 0x1000 = s.reg 0 0x1000) ∧
    (∀ (mgmt : Bool) (v : W64), v.getLsbD 3 = true → s.power.good = true → s.boot.perst = none → s.field 0 0x1000 12 12 = 1 →
      (if mgmt = true then s.clk.locked = true else s.boot.presented = false) →
      ∃ t : State, Sys2Proof.Machine.exec (.bootGo mgmt v) s = .next t ∧ t.field 0 0x1000 3 0 = 3 ∧
        t.field 0 0x1200 1 0 = getBits v 1 0 ∧ t.field 0 0x1200 2 2 = getBits v 2 2 ∧ t.tiles = s.tiles ∧ t.ctxs = s.ctxs ∧
        let bad := s.field 0 0x1210 31 0 < 4096 ∨ 2 ^ 26 < s.field 0 0x1210 31 0 ∨ 16384 < s.field 0 0x1210 47 32 ∨ getBits v 1 0 = 3 ∨
          getBits v 1 0 = 0 ∧ s.field 0 0x1208 11 0 ≠ 0 ∨ getBits v 1 0 ≠ 0 ∧ s.field 0 0x1218 15 15 = 0
        (¬ bad → t.boot.fetching = some s.clk.tick ∧ t.field 0 0x1000 11 4 = 0 ∧ t.field 0 0x1000 12 12 = 0 ∧
          (getBits v 1 0 ≠ 0 → t.boot.link = some (21 + getBits v 1 0))) ∧
        (bad → t.boot.fetching = none ∧ t.field 0 0x1000 11 4 = 1 ∧ t.field 0 0x1000 12 12 = 1)) ∧
    (s.power.good = true → s.boot.presented = false → s.boot.perst = none → ∀ k, s.boot.fetching = some k →
      holds .bootFetchTimeout 3 1 ∧ (∀ t, Sys2Proof.Machine.exec .bootFetchTimeout s = .next t → t.clk.tick = max s.clk.tick (k + 7000000000)) ∧
      (∀ bundle took rb en bad pages cut,
        let come := Instr.bootBundleFetched bundle took rb en bad pages cut
        (s.fetched bundle = none → Sys2Proof.Machine.exec come s = .next s) ∧
        (s.fetched bundle = some none → holds come 3 1) ∧
        (∀ b, s.fetched bundle = some (some b) → s.sourceBad = true ∨ b.length ≠ s.field 0 0x1210 31 0 + 8192 + s.field 0 0x1210 47 32 →
          holds come 3 1) ∧
        (∀ f c x, s.fetched bundle = some (some (f ++ c ++ x)) → s.field 0 0x1210 31 0 = f.length → c.length = 8192 →
          s.field 0 0x1210 47 32 = x.length → s.sourceBad = false →
          (∀ step code, s.bundleFault f c x = some (step, code) → holds come step code) ∧
          (s.bundleFault f c x = none →
            let floor := fieldAt c 0x20 1
            let blown := floor ≤ ones s.boot.fuses.rollback.toNat 64
            (∀ n, rb = some n → ones s.boot.fuses.rollback.toNat 64 + n < floor → holds come 7 bfFuse) ∧
            (s.boot.fuses.enrolled = false → en.isSome = true → holds come 7 bfFuse) ∧
            (blown ∨ rb = none ∧ floor ≤ 64 → s.boot.fuses.enrolled = true ∨ en = none →
              (cut = none → ∃ t : State, Sys2Proof.Machine.exec come s = .next t ∧
                t.boot.presented = true ∧ t.boot.fetching = none ∧ t.field 0 0x1000 3 0 = 9 ∧ t.field 0 0x1000 13 13 = 1 ∧
                t.field 0 0x20 15 0 = fieldAt c 0x18 2 ∧ t.boot.firmware = f ∧ t.boot.chain = x ∧ t.boot.fuses.enrolled = true ∧
                floor ≤ ones t.boot.fuses.rollback.toNat 64 ∧ t.tiles = [] ∧ ∀ a, readByte t.mem.cellar a = 0) ∧
              (cut.isSome = true → ∃ t : State, Sys2Proof.Machine.exec come s = .next t ∧ t.field 0 0x1000 3 0 = 7 ∧
                t.boot.presented = false ∧ t.boot.fetching = none ∧ t.tiles = s.tiles)))))) ∧
    (s.boot.presented = true → (∀ p, p < 24 → s.portUsable p = true → psActive ≤ s.pstate p) →
      ∃ t : State, Sys2Proof.Machine.exec .bootComplete s = .next t ∧ t.boot.active = false ∧ t.boot.presented = true ∧
        t.field 0 0x1000 3 0 = 0xA ∧ t.tiles = s.tiles ∧ t.mem = s.mem ∧ t.ctxs = s.ctxs)

/-- R363, R364, R365, R367, R380, R396, R435, R460: warm boots and control-core faults: PERST# withdraws the functions and keeps the registers,
the lock among them, the clock, a control-core fault and what the scrub is to erase; the boot at its deassertion, like WARM_BOOT, clears the lock
and keeps the boot sources; a pulse of PERST# shorter than 100 µs boots only if it has stopped a boot, and what else a short or held PERST#
leaves is log entry 49; the management
port reads and writes the boot registers; a control-core fault stops every plan. -/
def Obligations.WarmBootsAndCoreFaults : Prop :=
  ∀ s : State, s.power.good = true →
    let reset := fun (t : State) => t.boot.presented = false ∧ t.ctxs = [] ∧ t.mem.cellar = s.mem.cellar ∧ t.mem.keys = [] ∧
      t.boot.fuses = s.boot.fuses ∧ (∀ o ∈ bootSources, t.reg 0 o = s.reg 0 o) ∧ ∀ k, (t.tile k).larder = (s.tile k).larder
    let booted := fun (t : State) => reset t ∧ t.field 0 0x1000 13 13 = 0 ∧ t.faults.coreFault = false
    let withdrawn := fun (t : State) => reset t ∧ t.faults.coreFault = s.faults.coreFault ∧ (∀ p, p < 24 → t.pstate p = psDisabled) ∧
      ∀ fn o, (∀ p, p < 24 → regKey fn o ≠ regKey 0 (0x40400 + 64 * p)) → t.reg fn o = s.reg fn o
    let pulls := fun (ok : State → Prop) => ∃ t : State, Sys2Proof.Machine.exec .perstAssert s = .next t ∧
      t.boot.perst = some s.clk.tick ∧ t.boot.active = s.boot.active ∧ t.clk.tick = s.clk.tick ∧ ok t
    (s.boot.perst = none → (s.boot.rom = true → pulls withdrawn) ∧ (s.boot.rom = false → pulls (fun t => t = { s with boot := t.boot }))) ∧
    (∀ k held, s.boot.perst = some k →
      (s.clk.locked = true → s.boot.active = true ∨ 700000 ≤ held → ∃ t : State, Sys2Proof.Machine.exec (.perstDeassert held) s = .next t ∧
        t.boot.active = true ∧ t.boot.cause = 1 ∧ t.boot.perst = none ∧ t.field 0 0x1000 16 15 = 1 ∧
        t.clk.tick = max s.clk.tick (k + held) ∧ booted t) ∧
      (s.clk.locked = true → s.boot.active = false → held < 700000 → ∃ t : State, Sys2Proof.Machine.exec (.perstDeassert held) s = .next t ∧
        t.boot = { s.boot with perst := none } ∧ t.regs = s.regs ∧ t.tiles = s.tiles ∧ t.mem = s.mem ∧ t.ctxs = s.ctxs) ∧
      (s.clk.locked = false →
        Sys2Proof.Machine.exec (.perstDeassert held) s = .next { s with boot := { s.boot with perst := none } })) ∧
    (s.clk.locked = true →
      (s.boot.active = false → ∃ t : State, Sys2Proof.Machine.exec .warmBoot s = .next t ∧ t.boot.active = true ∧ t.boot.cause = 2 ∧
        t.boot.trigger = s.clk.tick ∧ t.field 0 0x1000 16 15 = 2 ∧ t.out = s.out ++ [.response none .ok] ∧ booted t) ∧
      (s.boot.active = true → Sys2Proof.Machine.exec .warmBoot s = .next (s.emit (.response none .busy))) ∧
      Sys2Proof.Machine.exec .readBoot s = .next (s.emit (.response none (.bootRegs (s.reg 0 0x1000) (bootSources.map (s.reg 0))))) ∧
      (∀ o v, o ∈ bootSources → ∃ t : State, Sys2Proof.Machine.exec (.writeBoot o v) s = .next t ∧
        (o ≠ 0x1200 → t.reg 0 o = v &&& bootSourceMask o ∧ t.boot = s.boot) ∧
        (o = 0x1200 → t.field 0 o 1 0 = getBits v 1 0 ∧ t.field 0 o 2 2 = getBits v 2 2) ∧
        (∀ q ∈ bootSources, q ≠ o → t.reg 0 q = s.reg 0 q) ∧ t.out = s.out ++ [.response none .ok] ∧ t.tiles = s.tiles ∧ t.ctxs = s.ctxs) ∧
      (∀ o v, o ∉ bootSources → Sys2Proof.Machine.exec (.writeBoot o v) s = .next (s.emit (.response none .error)))) ∧
    (∀ core, s.boot.presented = true → s.faults.coreFault = false → 1 ≤ core → core ≤ 11 →
      ∀ c ∈ [Instr.watchdogMiss core, .firmwareMemoryUe core], ∃ t : State, Sys2Proof.Machine.exec c s = .next t ∧ t.faults.coreFault = true ∧
        (∀ f ∈ s.functions, t.field f 0x60000 3 3 = 1) ∧ (∀ u ∈ s.units, (t.unit u).stopAsked = true) ∧ t.tiles = s.tiles ∧
        t.mem = s.mem)

/-- R7, R8, R9, R437, R438, R439: writes of the setup registers, aligned and of 4 or 8 bytes; any other has no effect.  A write reaches the
fields that its bytes cover: read-write fields take the data, written ones clear status bits unless hardware sets them in that cycle (which
is counted; a bit of PWR_STATUS is set in every copy, R464), and a counter field is cleared with its OVF by writing 0 to all of it that is
covered, and still counts.  A register that the function may not write stays. -/
def Obligations.RegisterWrites : Prop :=
  ∀ (s : State) (fn off size : Nat) (v : W64),
    (size ≠ 4 ∧ size ≠ 8 ∨ off % size ≠ 0 → ∀ (race : W64) (more : Nat),
      ∀ c ∈ [Instr.registerWrite fn off v size, .statusW1c fn off v size race, .counterClear fn off v size more],
      Sys2Proof.Machine.exec c s = .next s) ∧
    (∀ (o : Nat) (d m : W64), size = 8 ∧ off % 8 = 0 ∧ o = off ∧ d = v ∧ m = 0xFFFFFFFFFFFFFFFF#64 ∨
        size = 4 ∧ off % 8 = 0 ∧ o = off ∧ d = v &&& 0xFFFFFFFF#64 ∧ m = 0xFFFFFFFF#64 ∨
        size = 4 ∧ off % 8 = 4 ∧ o = off - 4 ∧ d = v <<< 32 ∧ m = 0xFFFFFFFF00000000#64 →
      let onlyReg := fun (t : State) => (∀ g q, regKey g q ≠ regKey fn o → t.reg g q = s.reg g q) ∧ t = { s with regs := t.regs }
      let old := s.reg fn o
      let rw := accessMask o .rw
      let w1c := accessMask o .w1c
      (plainReg o = true → s.mayWrite fn o = false → Sys2Proof.Machine.exec (.registerWrite fn off v size) s = .next s) ∧
      (plainReg o = true → s.mayWrite fn o = true → ∃ t : State, Sys2Proof.Machine.exec (.registerWrite fn off v size) s = .next t ∧
        t.reg fn o &&& rw = ((old &&& ~~~m) ||| (d &&& m)) &&& rw ∧
        (s.functions.contains fn = true → t.reg fn o &&& w1c = old &&& w1c &&& ~~~(d &&& m)) ∧
        (w1c = 0 → accessMask o .cnt = 0 → t.reg fn o = (old &&& ~~~(m &&& rw)) ||| (d &&& m &&& rw)) ∧ onlyReg t) ∧
      (s.mayWrite fn o = false → ∀ (race : W64) (more : Nat), ∀ c ∈ [Instr.statusW1c fn off v size race, .counterClear fn off v size more],
        Sys2Proof.Machine.exec c s = .next s) ∧
      (s.mayWrite fn o = true → ∀ race : W64,
        (d &&& m &&& w1c &&& race = 0 → ∃ t : State, Sys2Proof.Machine.exec (.statusW1c fn off v size race) s = .next t ∧
          t.reg fn o = (old &&& ~~~(d &&& m &&& w1c)) ||| (race &&& w1c) ∧ t = { s with regs := t.regs } ∧
          ∀ g q, regKey g q ≠ regKey fn o → t.reg g q = if o = 0x90000 ∧ q = o ∧ g < 8 then s.reg g q ||| (race &&& w1c) else s.reg g q) ∧
        (d &&& m &&& w1c &&& race ≠ 0 → ∃ t : State, Sys2Proof.Machine.exec (.statusW1c fn off v size race) s = .next t ∧
          t.reg fn o &&& race &&& w1c = race &&& w1c ∧ (o = 0x90000 → ∀ g, g < 8 → t.reg g o &&& race &&& w1c = race &&& w1c) ∧
          (o ≠ 0x60000 → t.reg fn o = (old &&& ~~~(d &&& m &&& w1c)) ||| (race &&& w1c)) ∧
          t.field fn (0x80100 + 8 * blockOf o) 31 0 = min (s.field fn (0x80100 + 8 * blockOf o) 31 0 + 1) (2 ^ 32 - 1) ∧
          t.tiles = s.tiles ∧ t.mem = s.mem ∧ t.ctxs = s.ctxs)) ∧
      (∀ row f more, s.mayWrite fn o = true → regRow o = some row → row.fields.filter (fun g => g.access == .cnt) = [f] → o ≠ 0x60020 →
        let top := 2 ^ (f.hi + 1 - f.lo) - 1
        let leaves := fun (n : Nat) (clears : Bool) => ∃ t : State, Sys2Proof.Machine.exec (.counterClear fn off v size more) s = .next t ∧
          t.field fn o f.hi f.lo = min n top ∧ t.tiles = s.tiles ∧ t.mem = s.mem ∧ t.ctxs = s.ctxs ∧
          (clears = true → more < top → row.fields.any (fun g => g.hi == 63) = true → t.field fn o 63 63 = 0)
        (m &&& f.mask ≠ 0 → d &&& (m &&& f.mask) = 0 → leaves more true) ∧
        (m &&& f.mask = 0 ∨ d &&& (m &&& f.mask) ≠ 0 → leaves (s.field fn o f.hi f.lo + more) false)))

/-- R398, R440, R441: the event ring: enabling it resets its position, a size outside 2^6 to 2^16 leaves it off and one in use stands, a
write of HEAD says what is unread, and vector 64 announces records; DET takes a write of the owner while nothing runs, and shows any other; that
this holds for a write of a function that is not the owner is log entry 51. -/
def Obligations.EventRingAndDet : Prop :=
  ∀ (s : State) (fn : Nat) (v : W64), s.functions.contains fn = true →
    let k := getBits v 5 1
    (v.getLsbD 0 = true → ∃ t : State, Sys2Proof.Machine.exec (.eventRingEnable fn v true) s = .next t ∧
      t.field fn 0x60008 6 6 = getBits v 6 6 ∧ t.tiles = s.tiles ∧ t.mem = s.mem ∧ t.out = s.out ∧
      (s.field fn 0x60008 0 0 = 0 → t.field fn 0x60008 5 1 = k ∧
        (6 ≤ k → k ≤ 16 → t.field fn 0x60008 0 0 = 1 ∧ t.reg fn 0x60018 = BitVec.ofNat 64 (2 ^ 32) ∧ mget 0 t.faults.evtUnread fn = 0) ∧
        (k < 6 ∨ 16 < k → t.field fn 0x60008 0 0 = 0 ∧ t.reg fn 0x60018 = s.reg fn 0x60018)) ∧
      (s.field fn 0x60008 0 0 = 1 → t.field fn 0x60008 5 0 = s.field fn 0x60008 5 0 ∧ t.reg fn 0x60018 = s.reg fn 0x60018 ∧
        t.faults = s.faults)) ∧
    (∃ t : State, Sys2Proof.Machine.exec (.evtHeadWrite fn v true) s = .next t ∧ t.field fn 0x60018 15 0 = getBits v 15 0 ∧
      t.field fn 0x60018 31 16 = s.field fn 0x60018 31 16 ∧ t.field fn 0x60018 32 32 = s.field fn 0x60018 32 32 ∧
      (let size := 2 ^ s.field fn 0x60008 5 1
       getBits v 15 0 < size → mget 0 t.faults.evtUnread fn = (s.field fn 0x60018 31 16 + size - getBits v 15 0) % size) ∧
      t.tiles = s.tiles ∧ t.mem = s.mem ∧ t.out = s.out) ∧
    (∀ c ∈ [Instr.eventRingEnable fn v false, .evtHeadWrite fn v false, .detWrite fn v false], Sys2Proof.Machine.exec c s = .next s) ∧
    (s.faults.evtDue.contains fn = true → s.field fn 0x60008 6 6 = 1 →
      ∃ t : State, Sys2Proof.Machine.exec (.eventInterrupt fn) s = .next t ∧
        (s.reachable fn = true → t.out = s.out ++ [.interrupt fn 64] ∧ t.host.unflushed = s.host.unflushed) ∧
        (s.reachable fn = false → t.out = s.out ∧ t.host.unflushed = s.host.unflushed ++ [(fn, .interrupt fn 64, none)]) ∧
        t.faults.evtDue.contains fn = false ∧ (∀ n, mfind s.faults.evtIntAt fn = some n → n + 70000 ≤ t.clk.tick) ∧ t.regs = s.regs ∧
        t.tiles = s.tiles ∧ t.mem = s.mem) ∧
    (∃ t : State, Sys2Proof.Machine.exec (.detWrite fn v true) s = .next t ∧
      (s.isOwner fn = true → s.detWritable = true → t.field 0 0xA0000 0 0 = getBits v 0 0 ∧ t.reg fn 0xA0008 = s.reg fn 0xA0008) ∧
      (s.isOwner fn = false ∨ s.detWritable = false → t.reg 0 0xA0000 = s.reg 0 0xA0000 ∧ t.field fn 0xA0008 2 2 = 1) ∧
      t = { s with regs := t.regs })

/-- R389, R390, R391: the SPDM responders: each request that comes in order is answered, and one out of order, or that the responder cannot
serve, with an error; a session opens with KEY_EXCHANGE on a point of the curve, is secure after FINISH and ends with END_SESSION; the
management port never reports a tenant's measurements.  (An answer out of order is the model's choice: log entry 47.)
R352, R353, R389: TDISP and the CXL link encryption of a function in its secure session: a lock from CONFIG_UNLOCKED, a start from
CONFIG_LOCKED, and a stop from any state; keys for a port whose link is up.  Outside a secure session each is refused.  These states and
refusals, and the key management, are those of the published protocols as the model takes them (log entry 48). -/
def Obligations.SpdmAndTdisp : Prop :=
  (∀ (s : State) (who : Option Nat), s.spdmRuns who = true →
      let x := s.spdm who
      let answers := fun (c : Instr) (y : Spdm) (r : Reply) => ∃ t : State, Sys2Proof.Machine.exec c s = .next t ∧
        t.out = s.out ++ [.response who r] ∧ t.spdm who = y ∧ (∀ w, spdmKey w ≠ spdmKey who → t.spdm w = s.spdm w) ∧ t.regs = s.regs ∧
        t.tiles = s.tiles ∧ t.mem = s.mem ∧ t.ctxs = s.ctxs ∧ t.boot.fuses = s.boot.fuses
      answers (.getVersion who) { step := 1 } (.version 1 3) ∧
      (1 ≤ x.step → answers (.getCapabilities who) { x with step := max 2 x.step } (.capabilities true true true true true false false)) ∧
      (2 ≤ x.step → answers (.negotiateAlgorithms who true) { x with step := 3 } (.algorithms .rsassa4096Sha512 .sha512 .secp384r1 .aes256gcm) ∧
        answers (.negotiateAlgorithms who false) x .error) ∧
      (x.step < 1 → answers (.getCapabilities who) x .error) ∧
      (∀ agree, x.step < 2 → answers (.negotiateAlgorithms who agree) x .error) ∧
      (x.step < 3 → ∀ slot offset len nonce index ask key good,
        ∀ c ∈ [Instr.getDigests who, .getCertificate who slot offset len, .challenge who slot nonce, .getMeasurements who index ask,
          .keyExchange who key, .finish who good, .endSession who], answers c x .error) ∧
      (3 ≤ x.step →
        answers (.getDigests who) x (.digests (sha512 s.boot.chain)) ∧
        (∀ offset len, answers (.getCertificate who 0 offset len) x
          (.certificate ((s.boot.chain.drop offset).take len) (s.boot.chain.length - offset - min len (s.boot.chain.length - offset)))) ∧
        (∀ nonce, answers (.challenge who 0 nonce) x (.challengeAuth (sha512 s.boot.chain) (identitySign (sha512 s.boot.chain ++ nonce)))) ∧
        (∀ slot offset len nonce, slot ≠ 0 → ∀ c ∈ [Instr.getCertificate who slot offset len, .challenge who slot nonce], answers c x .error) ∧
        (∀ (index : Nat) (ask : Option (List Byte)),
          let all := [1, 2, 3, 4, 5, 6, 7] ++ (if who.isSome then [8, 9] else [])
          (index = 255 ∨ index ∈ all → ∃ ms sig, answers (.getMeasurements who index ask) x (.measurements ms sig) ∧
            ms.map (·.1) = (if index = 255 then all else [index]) ∧ sig.isSome = ask.isSome) ∧
          (index ≠ 255 → index ∉ all → answers (.getMeasurements who index ask) x .error)) ∧
        (∀ key, onCurve beNat key = true → ∃ e own sig, answers (.keyExchange who key) { x with session := some ⟨e, false⟩ } (.keyExchange own sig)) ∧
        (∀ key, onCurve beNat key = false → answers (.keyExchange who key) x .error) ∧
        (∀ e, x.session = some ⟨e, false⟩ → answers (.finish who true) { x with session := some ⟨e, true⟩ } .finished ∧
          answers (.finish who false) x .error ∧ answers (.endSession who) x .error) ∧
        (∀ e, x.session = some ⟨e, true⟩ → answers (.endSession who) { x with session := none } .ended ∧
          ∀ good, answers (.finish who good) x .error) ∧
        (x.session = none → answers (.endSession who) x .error ∧ ∀ good, answers (.finish who good) x .error))) ∧
  (∀ (s : State) (fn : Nat), s.spdmRuns (some fn) = true → 3 ≤ (s.spdm (some fn)).step →
      let st := s.field fn 0x10018 1 0
      let goes := fun (r : TdispRequest) (n : Nat) => ∃ t : State, Sys2Proof.Machine.exec (.tdispMessage fn r) s = .next t ∧
        t.field fn 0x10018 1 0 = n ∧ t.out.getLast? = some (.response (some fn) (.tdisp n)) ∧
        (st ≠ 2 → t.out = s.out ++ [.response (some fn) (.tdisp n)] ∧ t.tiles = s.tiles ∧ t.mem = s.mem ∧ t.ctxs = s.ctxs ∧ t.host = s.host)
      let refuses := fun (c : Instr) => Sys2Proof.Machine.exec c s = .next (s.emit (.response (some fn) .error))
      (s.secure (some fn) = true →
        (st = 0 → goes .lock 1) ∧ (st = 1 → goes .start 2) ∧ goes .stop 0 ∧
        (st ≠ 0 → refuses (.tdispMessage fn .lock)) ∧ (st ≠ 1 → refuses (.tdispMessage fn .start)) ∧
        (∀ p, p < 2 → s.field fn (0x10008 + 8 * p) 0 0 = 1 → ∃ t : State, Sys2Proof.Machine.exec (.ideKeyManagement fn p) s = .next t ∧
          t.field fn (0x10008 + 8 * p) 9 9 = 1 ∧ t.out = s.out ++ [.response (some fn) .ide] ∧ t.tiles = s.tiles ∧ t.mem = s.mem ∧
          t.ctxs = s.ctxs) ∧
        (∀ p, 2 ≤ p ∨ s.field fn (0x10008 + 8 * p) 0 0 ≠ 1 → refuses (.ideKeyManagement fn p))) ∧
      (s.secure (some fn) = false → ∀ r p, refuses (.tdispMessage fn r) ∧ refuses (.ideKeyManagement fn p)))

/-- R386, R392, R393, R394: an ATTEST in order writes a report that carries the request's nonce, the serial and the partition, and completes
with its length; with KEY it also installs the context's hatch key, and no other key changes.  One out of order, or with a key that is no
point of the curve, completes BAD_DESCRIPTOR with GEOMETRY, and one for a context that is not in use with STATE. -/
def Obligations.Attestation : Prop :=
  ∀ (s u : State) (fn q : Nat) (d : DescRef) (request : List Byte), s.starts fn q d u → d.fn = fn → d.opcode = 0x60 →
    let nonce := (hostRead request 160).take 32
    let key := ((hostRead request 160).drop 32).take 96
    let c := if d.opd 1 1 % 2 = 0 then Instr.attest fn q request else .attestKey fn q request
    let inOrder := d.opd 1 1 < 2 ∧ d.reservedOk [(0, 2), (8, 8), (16, 8), (24, 4)] = true ∧ d.opd 8 8 % 64 = 0 ∧ d.opd 16 8 % 64 = 0 ∧
      32768 ≤ d.opd 24 4 ∧ (d.opd 1 1 = 1 → onCurve leNat key = true)
    (¬ inOrder → Sys2Proof.Machine.exec c s = .next (u.refuse d rsGeometry)) ∧
    (inOrder → u.ctxUsable d.ctxKey = false → Sys2Proof.Machine.exec c s = .next (u.refuse d rsState)) ∧
    (inOrder → u.ctxUsable d.ctxKey = true → ∃ (t : State) (r : List Byte), Sys2Proof.Machine.exec c s = .next t ∧
      (u.reachable fn = true → t.out = s.out ++ [.hostWrite (d.opd 16 8) r]) ∧
      (u.reachable fn = false → t.out = s.out ∧ t.host.unflushed = u.host.unflushed ++ [(fn, .hostWrite (d.opd 16 8) r, none)]) ∧
      t.host.done = u.host.done ++ [(d, 0x00, r.length)] ∧ r.take 4 = [0x4C#8, 0x4D#8, 0x41#8, 0x52#8] ∧ fieldAt r 8 4 = r.length % 2 ^ 32 ∧
      (r.drop 16).take 32 = nonce ∧ fieldAt r 48 8 = s.boot.fuses.serial % 2 ^ 64 ∧ fieldAt r 58 1 = fn % 2 ^ 8 ∧
      t.mem.cellar = s.mem.cellar ∧ t.tiles = s.tiles ∧ t.regs = s.regs ∧
      (d.opd 1 1 = 0 → t.mem = s.mem) ∧
      (d.opd 1 1 = 1 → (mget {} t.mem.keys (u.ctx d.ctxKey).keySlot).hatchKey.isSome = true ∧
        ∀ k, k ≠ (u.ctx d.ctxKey).keySlot → mget {} t.mem.keys k = mget {} s.mem.keys k))

/-- R6, R18, R108, R191, R192, R197, R270, R328, R366: the block before power and what every part of it holds at reset: nothing waits, no
function is presented, every register has its reset value, the memories read zero, every context is free, every queue is off and every
slip unit has its reset exponent and slack.  (That reset is the unpowered module is the model's choice: log entry 3.) -/
def Obligations.ResetState : Prop :=
  State.reset.pending = [] ∧ State.reset.functions = [] ∧ State.reset.power.good = false ∧ State.reset.dom = none ∧
  (∀ fn off, State.reset.reg fn off = regReset off) ∧ (∀ a, readByte State.reset.mem.cellar a = 0) ∧
  Memory.wf State.reset.mem.cellar = true ∧
  (∀ k, State.reset.tile k = Tile.reset ∧ (State.reset.tile k).predReg 0 = true ∧ (State.reset.tile k).poison = false ∧
    ∀ a, readByte (State.reset.tile k).larder a = 0) ∧
  (∀ c, (State.reset.ctx c).phase = .free) ∧
  (∀ fn q, fn < 8 → q < 64 → State.reset.queueOn fn q = false) ∧
  (∀ u, (State.reset.unit u).k = 12 ∧ (State.reset.unit u).slack = 32 ∧ (State.reset.unit u).debt = 0)

/-- The canonical form of the cellar: whatever the command, a step keeps its addresses strictly rising and lists no byte that reads as
an unlisted one does. -/
def Obligations.CellarStaysCanonical : Prop :=
  ∀ s t : State, Memory.wf s.mem.cellar = true → Sys2Proof.Machine.step s = .next t → Memory.wf t.mem.cellar = true

/-- Commands are taken first in, first out, and a step takes exactly one: no command adds to the queue, drops from it or reorders it,
not even a reset, a warm boot or a power-up. -/
def Obligations.CommandsKeepTheirOrder : Prop :=
  ∀ s t : State, Sys2Proof.Machine.step s = .next t → t.pending = s.pending.drop 1

/-- No command ends in a fault or a refusal: the block answers every command, in every state, with a next state (log entry 1). -/
def Obligations.NoCommandStops : Prop :=
  ∀ (c : Instr) (s : State), ∃ t : State, Sys2Proof.Machine.exec c s = .next t

/-- R378, R383, R448: fuses are blown and never restored: whatever the command, a blown anti-rollback or owner-hash fuse stays blown, an
enrolled module stays enrolled, a used repair slot stays used, with its entry, a fuse of the power history stays blown, and what manufacture
has fused does not change. -/
def Obligations.FusesStayBlown : Prop :=
  ∀ s t : State, Sys2Proof.Machine.step s = .next t →
    s.boot.fuses.rollback &&& t.boot.fuses.rollback = s.boot.fuses.rollback ∧
    s.boot.fuses.owner &&& t.boot.fuses.owner = s.boot.fuses.owner ∧
    (s.boot.fuses.enrolled = true → t.boot.fuses.enrolled = true) ∧
    t.boot.fuses.slots.take s.boot.fuses.slots.length = s.boot.fuses.slots ∧
    (∀ i, (mget 0 s.boot.fuses.history i : BitVec 8) &&& mget 0 t.boot.fuses.history i = mget 0 s.boot.fuses.history i) ∧
    t.boot.fuses.serial = s.boot.fuses.serial ∧ t.boot.fuses.identity = s.boot.fuses.identity ∧ t.boot.fuses.grade = s.boot.fuses.grade ∧
    t.boot.fuses.stepping = s.boot.fuses.stepping ∧ t.boot.fuses.shape = s.boot.fuses.shape
end

