-- ==== Sys2Proof/Laws/Map.lean ====
section
/-!
SUPPORT. Sparse tables and memories: what is read after a write, and that every write keeps the canonical form.
-/
namespace Sys2Proof.Machine

/-! ### Reading after writing -/

@[simp] theorem mfind_nil {α : Type} (a : Nat) : mfind ([] : Map α) a = none := rfl

theorem mfind_mput {α : Type} (m : Map α) (a b : Nat) (v : α) :
    mfind (mput m a v) b = if b = a then some v else mfind m b := by
  induction m with
  | nil => simp [mput, mfind]
  | cons p r ih =>
    obtain ⟨k, w⟩ := p
    simp only [mput]
    split
    · simp [mfind]
    · split
      · subst_vars; simp only [mfind]; split <;> simp_all
      · simp only [mfind, ih]; split <;> split <;> simp_all

@[simp] theorem mfind_mput_same {α : Type} (m : Map α) (a : Nat) (v : α) : mfind (mput m a v) a = some v := by
  simp [mfind_mput]

theorem mfind_mput_other {α : Type} (m : Map α) {a b : Nat} (v : α) (h : b ≠ a) : mfind (mput m a v) b = mfind m b := by
  simp [mfind_mput, h]

theorem mfind_mdel {α : Type} (m : Map α) (a b : Nat) :
    mfind (mdel m a) b = if b = a then none else mfind m b := by
  induction m with
  | nil => simp [mdel]
  | cons p r ih =>
    obtain ⟨k, w⟩ := p
    simp only [mdel]
    split
    · subst_vars; simp only [ih, mfind]; split <;> simp_all
    · simp only [mfind, ih]; split <;> split <;> simp_all

@[simp] theorem mfind_mdel_same {α : Type} (m : Map α) (a : Nat) : mfind (mdel m a) a = none := by simp [mfind_mdel]

theorem mget_mset {α : Type} [DecidableEq α] (d : α) (m : Map α) (a b : Nat) (v : α) :
    mget d (mset d m a v) b = if b = a then v else mget d m b := by
  simp only [mset, mget]
  split
  · subst_vars; simp only [mfind_mdel]; split <;> simp
  · simp only [mfind_mput]; split <;> simp

@[simp] theorem mget_mset_same {α : Type} [DecidableEq α] (d : α) (m : Map α) (a : Nat) (v : α) :
    mget d (mset d m a v) a = v := by simp [mget_mset]

theorem mget_mset_other {α : Type} [DecidableEq α] (d : α) (m : Map α) {a b : Nat} (v : α) (h : b ≠ a) :
    mget d (mset d m a v) b = mget d m b := by simp [mget_mset, h]

theorem mget_mput {α : Type} (d : α) (m : Map α) (a b : Nat) (v : α) :
    mget d (mput m a v) b = if b = a then v else mget d m b := by
  simp only [mget, mfind_mput]; split <;> simp

/-! ### The canonical form -/

/-- Every key of a table is above a bound. -/
def Above {α : Type} (n : Nat) (m : Map α) : Prop := ∀ p ∈ m, n < p.1

theorem mrising_cons {α : Type} (k : Nat) (v : α) (m : Map α) :
    mrising ((k, v) :: m) = true ↔ Above k m ∧ mrising m = true := by
  induction m generalizing k v with
  | nil => simp [mrising, Above]
  | cons p r ih =>
    obtain ⟨k', v'⟩ := p
    have h := ih k' v'
    simp only [mrising, Bool.and_eq_true, decide_eq_true_eq, h, Above, List.mem_cons, forall_eq_or_imp] at *
    constructor
    · rintro ⟨h1, h2, h3⟩
      exact ⟨⟨h1, fun p hp => Nat.lt_trans h1 (h2 p hp)⟩, h2, h3⟩
    · rintro ⟨⟨h1, _⟩, h2, h3⟩
      exact ⟨h1, h2, h3⟩

theorem above_mput {α : Type} {n : Nat} {m : Map α} {a : Nat} {v : α} (h : Above n m) (ha : n < a) : Above n (mput m a v) := by
  induction m with
  | nil => simpa [Above, mput] using ha
  | cons p r ih =>
    obtain ⟨k, w⟩ := p
    have hk := h (k, w) (by simp)
    have hr : Above n r := fun q hq => h q (by simp [hq])
    simp only [mput]
    split
    · intro q hq; simp only [List.mem_cons] at hq; rcases hq with rfl | rfl | hq
      · exact ha
      · exact hk
      · exact hr q hq
    · split
      · intro q hq; simp only [List.mem_cons] at hq; rcases hq with rfl | hq
        · exact ha
        · exact hr q hq
      · intro q hq; simp only [List.mem_cons] at hq; rcases hq with rfl | hq
        · exact hk
        · exact ih hr q hq

theorem above_mdel {α : Type} {n : Nat} {m : Map α} {a : Nat} (h : Above n m) : Above n (mdel m a) := by
  induction m with
  | nil => simpa [mdel] using h
  | cons p r ih =>
    obtain ⟨k, w⟩ := p
    have hr : Above n r := fun q hq => h q (by simp [hq])
    simp only [mdel]
    split
    · exact ih hr
    · intro q hq; simp only [List.mem_cons] at hq; rcases hq with rfl | hq
      · exact h _ (by simp)
      · exact ih hr q hq

theorem mrising_mput {α : Type} {m : Map α} {a : Nat} {v : α} (h : mrising m = true) : mrising (mput m a v) = true := by
  induction m with
  | nil => rfl
  | cons p r ih =>
    obtain ⟨k, w⟩ := p
    obtain ⟨hk, hr⟩ := (mrising_cons k w r).1 h
    simp only [mput]
    split
    · rename_i hlt
      refine (mrising_cons _ _ _).2 ⟨?_, h⟩
      intro q hq; simp only [List.mem_cons] at hq; rcases hq with rfl | hq
      · exact hlt
      · exact Nat.lt_trans hlt (hk q hq)
    · split
      · subst_vars; exact (mrising_cons _ _ _).2 ⟨hk, hr⟩
      · exact (mrising_cons _ _ _).2 ⟨above_mput hk (by omega), ih hr⟩

theorem mrising_mdel {α : Type} {m : Map α} {a : Nat} (h : mrising m = true) : mrising (mdel m a) = true := by
  induction m with
  | nil => rfl
  | cons p r ih =>
    obtain ⟨k, w⟩ := p
    obtain ⟨hk, hr⟩ := (mrising_cons k w r).1 h
    simp only [mdel]
    split
    · exact ih hr
    · exact (mrising_cons _ _ _).2 ⟨above_mdel hk, ih hr⟩

theorem all_mput {α : Type} {m : Map α} {a : Nat} {v : α} {f : Nat × α → Bool} (h : m.all f = true) (hv : f (a, v) = true) :
    (mput m a v).all f = true := by
  induction m with
  | nil => simpa [mput] using hv
  | cons p r ih =>
    obtain ⟨k, w⟩ := p
    simp only [List.all_cons, Bool.and_eq_true] at h
    simp only [mput]
    split
    · simp [hv, h.1, h.2]
    · split
      · simp [hv, h.2]
      · simp [h.1, ih h.2]

theorem all_mdel {α : Type} {m : Map α} {a : Nat} {f : Nat × α → Bool} (h : m.all f = true) : (mdel m a).all f = true := by
  induction m with
  | nil => rfl
  | cons p r ih =>
    obtain ⟨k, w⟩ := p
    simp only [List.all_cons, Bool.and_eq_true] at h
    simp only [mdel]
    split
    · exact ih h.2
    · simp [h.1, ih h.2]

/-- A write keeps the canonical form. -/
theorem mwf_mset {α : Type} [DecidableEq α] {d : α} {m : Map α} {a : Nat} {v : α} (h : mwf d m = true) : mwf d (mset d m a v) = true := by
  simp only [mwf, Bool.and_eq_true] at *
  simp only [mset]
  split
  · exact ⟨mrising_mdel h.1, all_mdel h.2⟩
  · exact ⟨mrising_mput h.1, all_mput h.2 (by simpa using ‹_›)⟩

/-! ### Memories -/

theorem readByte_writeByte (m : Memory) (a b : Nat) (v : Byte) : readByte (writeByte m a v) b = if b = a then v else readByte m b :=
  mget_mset _ _ _ _ _

theorem wf_writeByte {m : Memory} (a : Nat) (v : Byte) (h : Memory.wf m = true) : Memory.wf (writeByte m a v) = true := mwf_mset h

/-- A store of bytes keeps the canonical form. -/
theorem wf_writeBytes {m : Memory} (a : Nat) (bs : List Byte) (h : Memory.wf m = true) : Memory.wf (writeBytes m a bs) = true := by
  induction bs generalizing m a with
  | nil => exact h
  | cons b bs ih => exact ih _ (wf_writeByte _ _ h)

/-- Every byte of memory after a store of bytes. -/
theorem readByte_writeBytes (m : Memory) (a x : Nat) (bs : List Byte) :
    readByte (writeBytes m a bs) x = if a ≤ x ∧ x < a + bs.length then bs.getD (x - a) 0 else readByte m x := by
  induction bs generalizing m a with
  | nil => rw [if_neg (by simp only [List.length_nil]; omega)]; rfl
  | cons b bs ih =>
    simp only [writeBytes, ih, readByte_writeByte, List.length_cons]
    by_cases h1 : x = a
    · subst h1
      rw [if_neg (by omega), if_pos rfl, if_pos (by omega), Nat.sub_self]; rfl
    · by_cases h2 : a + 1 ≤ x ∧ x < a + 1 + bs.length
      · have h3 : x - a = (x - (a + 1)) + 1 := by omega
        rw [if_pos h2, if_pos (by omega), h3]; rfl
      · rw [if_neg h2, if_neg h1, if_neg (by omega)]

@[simp] theorem length_readBytes (m : Memory) (a n : Nat) : (readBytes m a n).length = n := by
  induction n generalizing a with
  | zero => rfl
  | succ n ih => simp [readBytes, ih]

theorem getD_readBytes (m : Memory) (a n i : Nat) (h : i < n) : (readBytes m a n).getD i 0 = readByte m (a + i) := by
  induction n generalizing a i with
  | zero => omega
  | succ n ih =>
    cases i with
    | zero => simp [readBytes]
    | succ i => simp only [readBytes, List.getD_cons_succ]; rw [ih _ _ (by omega)]; congr 1; omega

/-- The bytes read back after they are stored. -/
theorem readBytes_writeBytes (m : Memory) (a : Nat) (bs : List Byte) : readBytes (writeBytes m a bs) a bs.length = bs := by
  apply List.ext_getElem (by simp)
  intro i h1 h2
  have := getD_readBytes (writeBytes m a bs) a bs.length i h2
  rw [readByte_writeBytes] at this
  simp [List.getD_eq_getElem?_getD, h2] at this
  exact this

/-! ### Bytes of a value -/

@[simp] theorem length_leBytes (n v : Nat) : (leBytes n v).length = n := by
  induction n generalizing v with
  | zero => rfl
  | succ n ih => simp [leBytes, ih]

theorem leNat_leBytes (n v : Nat) : leNat (leBytes n v) = v % 256 ^ n := by
  induction n generalizing v with
  | zero => simp [leBytes, leNat, Nat.mod_one]
  | succ n ih =>
    rw [show 256 ^ (n + 1) = 256 * 256 ^ n by rw [Nat.pow_succ, Nat.mul_comm], Nat.mod_mul]
    simp [leBytes, leNat, ih]

theorem leNat_lt (bs : List Byte) : leNat bs < 256 ^ bs.length := by
  induction bs with
  | nil => simp [leNat]
  | cons b bs ih =>
    have := b.isLt
    simp only [leNat, List.length_cons, Nat.pow_succ]
    omega

end Sys2Proof.Machine
end

