-- ==== Sys2Proof/Laws/Registers.lean ====
section
/-!
SUPPORT. Setup registers: what a field reads as after a write of it, of another field, and of another register (R7 to R9).
-/
namespace Sys2Proof.Machine

/-! ### Bits of a word -/

theorem testBit_bitsOf (v hi lo i : Nat) : (bitsOf v hi lo).testBit i = (decide (i < hi + 1 - lo) && v.testBit (lo + i)) := by
  simp [bitsOf, Nat.testBit_mod_two_pow, Nat.testBit_div_two_pow, Nat.add_comm]

theorem testBit_getBits (v : W64) (hi lo i : Nat) : (getBits v hi lo).testBit i = (decide (i < hi + 1 - lo) && v.getLsbD (lo + i)) := by
  simp [getBits, testBit_bitsOf, BitVec.getLsbD]

theorem getBits_lt (v : W64) (hi lo : Nat) : getBits v hi lo < 2 ^ (hi + 1 - lo) := Nat.mod_lt _ (Nat.two_pow_pos _)

theorem getLsbD_putBits (v : W64) (hi lo n j : Nat) (h : hi < 64) :
    (putBits v hi lo n).getLsbD j = if lo ≤ j ∧ j ≤ hi then n.testBit (j - lo) else v.getLsbD j := by
  have hm : ∀ m, ((2 ^ m - 1) * 2 ^ lo).testBit j = (decide (lo ≤ j) && decide (j - lo < m)) := by
    intro m; rw [Nat.testBit_mul_two_pow, Nat.testBit_two_pow_sub_one]
  have hn : (n % 2 ^ (hi + 1 - lo) * 2 ^ lo).testBit j = (decide (lo ≤ j) && (decide (j - lo < hi + 1 - lo) && n.testBit (j - lo))) := by
    rw [Nat.testBit_mul_two_pow, Nat.testBit_mod_two_pow]
  simp only [putBits, BitVec.getLsbD_or, BitVec.getLsbD_and, BitVec.getLsbD_not, BitVec.getLsbD_ofNat, hm, hn]
  by_cases h1 : lo ≤ j
  · by_cases h2 : j ≤ hi
    · have : j < 64 := by omega
      have h3 : j - lo < hi + 1 - lo := by omega
      simp [h1, h2, h3, this]
    · have h3 : ¬ (j - lo < hi + 1 - lo) := by omega
      by_cases h4 : j < 64
      · simp [h1, h2, h3, h4]
      · have : v.getLsbD j = false := BitVec.getLsbD_of_ge v j (by omega)
        simp [h1, h2, h3, this]
  · by_cases h4 : j < 64
    · simp [h1, h4]
    · have : v.getLsbD j = false := BitVec.getLsbD_of_ge v j (by omega)
      simp [h1, this]

/-- A field reads as what was written, cut to its width. -/
theorem getBits_putBits (v : W64) (hi lo n : Nat) (h : hi < 64) : getBits (putBits v hi lo n) hi lo = n % 2 ^ (hi + 1 - lo) := by
  apply Nat.eq_of_testBit_eq
  intro i
  rw [testBit_getBits, getLsbD_putBits _ _ _ _ _ h, Nat.testBit_mod_two_pow]
  by_cases hi' : i < hi + 1 - lo
  · have : lo ≤ lo + i ∧ lo + i ≤ hi := by omega
    simp [hi', this]
  · simp [hi']

/-- A field keeps its value when another one of the word is written. -/
theorem getBits_putBits_other (v : W64) (hi lo n hi' lo' : Nat) (h : hi < 64) (hd : hi' < lo ∨ hi < lo') :
    getBits (putBits v hi lo n) hi' lo' = getBits v hi' lo' := by
  apply Nat.eq_of_testBit_eq
  intro i
  rw [testBit_getBits, testBit_getBits, getLsbD_putBits _ _ _ _ _ h]
  by_cases hi' : i < hi' + 1 - lo'
  · have : ¬ (lo ≤ lo' + i ∧ lo' + i ≤ hi) := by omega
    simp [this]
  · simp [hi']

/-! ### Registers -/

/-- Two offsets below 2^24 that differ have different places. -/
theorem regKey_mod (fn off : Nat) (h : off < 2 ^ 24) : regKey fn off % 2 ^ 24 = off := by
  unfold regKey
  split
  · split
    · omega
    · exact Nat.mod_eq_of_lt h
  · omega

theorem regKey_ne {fn off fn' off' : Nat} (h : off < 2 ^ 24) (h' : off' < 2 ^ 24) (hne : off ≠ off') :
    regKey fn off ≠ regKey fn' off' := by
  intro e
  have := congrArg (· % 2 ^ 24) e
  simp only [regKey_mod _ _ h, regKey_mod _ _ h'] at this
  exact hne this

/-- A register held for the device has one place whichever function writes it. -/
theorem regKey_device {off : Nat} (r : RegRow) (h : regRow off = some r) (hp : r.perFn = false) (fn fn' : Nat) :
    regKey fn off = regKey fn' off := by
  simp [regKey, h, hp]

theorem regKey_fn {off : Nat} (r : RegRow) (h : regRow off = some r) (hp : r.perFn = true) {fn fn' : Nat} :
    regKey fn off = regKey fn' off ↔ fn = fn' := by
  simp only [regKey, h, hp, if_true]
  omega

theorem State.reg_setReg (s : State) (fn off : Nat) (v : W64) : (s.setReg fn off v).reg fn off = v := by
  simp [State.reg, State.setReg]

theorem State.reg_setReg_key {s : State} {fn off fn' off' : Nat} {v : W64} (h : regKey fn' off' ≠ regKey fn off) :
    (s.setReg fn off v).reg fn' off' = s.reg fn' off' := by
  simp only [State.reg, State.setReg, mget, mset]
  split <;> simp [mfind_mdel, mfind_mput, h]

theorem State.reg_setReg_other {s : State} {fn off fn' off' : Nat} {v : W64} (h : off < 2 ^ 24) (h' : off' < 2 ^ 24) (hne : off' ≠ off) :
    (s.setReg fn off v).reg fn' off' = s.reg fn' off' := State.reg_setReg_key (regKey_ne h' h hne)

/-- A write of one function's copy leaves another function's. -/
theorem State.reg_setReg_fn {s : State} {fn off fn' : Nat} {v : W64} (r : RegRow) (h : regRow off = some r) (hp : r.perFn = true)
    (hne : fn' ≠ fn) : (s.setReg fn off v).reg fn' off = s.reg fn' off :=
  State.reg_setReg_key (fun e => hne ((regKey_fn r h hp).1 e))

/-- A write of a device register is what every function reads. -/
theorem State.reg_setReg_device {s : State} {fn off fn' : Nat} {v : W64} (r : RegRow) (h : regRow off = some r) (hp : r.perFn = false) :
    (s.setReg fn off v).reg fn' off = v := by
  simp only [State.reg, State.setReg]
  rw [regKey_device r h hp fn' fn]
  simp

theorem State.reg_device {s : State} {fn off fn' : Nat} (r : RegRow) (h : regRow off = some r) (hp : r.perFn = false) :
    s.reg fn' off = s.reg fn off := by
  simp only [State.reg]
  rw [regKey_device r h hp fn' fn]

/-! ### Fields -/

theorem State.field_lt (s : State) (fn off hi lo : Nat) : s.field fn off hi lo < 2 ^ (hi + 1 - lo) := getBits_lt _ _ _

theorem State.field_setField (s : State) (fn off hi lo n : Nat) (h : hi < 64) :
    (s.setField fn off hi lo n).field fn off hi lo = n % 2 ^ (hi + 1 - lo) := by
  simp [State.field, State.setField, State.reg_setReg, getBits_putBits _ _ _ _ h]

/-- Another field of the same register. -/
theorem State.field_setField_bits (s : State) (fn off hi lo n hi' lo' : Nat) (h : hi < 64) (hd : hi' < lo ∨ hi < lo') :
    (s.setField fn off hi lo n).field fn off hi' lo' = s.field fn off hi' lo' := by
  simp [State.field, State.setField, State.reg_setReg, getBits_putBits_other _ _ _ _ _ _ h hd]

/-- A field of another register. -/
theorem State.reg_setField_other {s : State} {fn off fn' off' hi lo n : Nat} (h : off < 2 ^ 24) (h' : off' < 2 ^ 24) (hne : off' ≠ off) :
    (s.setField fn off hi lo n).reg fn' off' = s.reg fn' off' := State.reg_setReg_other h h' hne

theorem State.field_setField_other {s : State} {fn off fn' off' hi lo hi' lo' n : Nat} (h : off < 2 ^ 24) (h' : off' < 2 ^ 24)
    (hne : off' ≠ off) : (s.setField fn off hi lo n).field fn' off' hi' lo' = s.field fn' off' hi' lo' := by
  simp [State.field, State.reg_setField_other h h' hne]

/-- A field of another function's copy. -/
theorem State.field_setField_fn {s : State} {fn off fn' hi lo hi' lo' n : Nat} (r : RegRow) (hr : regRow off = some r)
    (hp : r.perFn = true) (hne : fn' ≠ fn) : (s.setField fn off hi lo n).field fn' off hi' lo' = s.field fn' off hi' lo' := by
  simp [State.field, State.setField, State.reg_setReg_fn r hr hp hne]

/-- A status bit that hardware sets reads 1. -/
theorem State.field_status (s : State) (fn off b : Nat) (h : b < 64) : (s.status fn off b).field fn off b b = 1 := by
  rw [State.status, State.field_setField _ _ _ _ _ _ h]
  simp

/-- Setting one status bit keeps the others. -/
theorem State.field_status_bits (s : State) (fn off b hi lo : Nat) (h : b < 64) (hd : hi < b ∨ b < lo) :
    (s.status fn off b).field fn off hi lo = s.field fn off hi lo := State.field_setField_bits _ _ _ _ _ _ _ _ h hd

theorem State.reg_status_other {s : State} {fn off fn' off' b : Nat} (h : off < 2 ^ 24) (h' : off' < 2 ^ 24) (hne : off' ≠ off) :
    (s.status fn off b).reg fn' off' = s.reg fn' off' := State.reg_setReg_other h h' hne

end Sys2Proof.Machine
end

