-- ==== Sys2Proof/Laws/State.lean ====
section
/-!
SUPPORT. The parts of the state after each of its named writes: a write changes its own part, and every other part stays.
-/
namespace Sys2Proof.Machine

/-! ### setReg -/

@[simp] theorem State.setReg_pending (s : State) (fn off : Nat) (v : W64) : (s.setReg fn off v).pending = s.pending := rfl
@[simp] theorem State.setReg_tiles (s : State) (fn off : Nat) (v : W64) : (s.setReg fn off v).tiles = s.tiles := rfl
@[simp] theorem State.setReg_clk (s : State) (fn off : Nat) (v : W64) : (s.setReg fn off v).clk = s.clk := rfl
@[simp] theorem State.setReg_mem (s : State) (fn off : Nat) (v : W64) : (s.setReg fn off v).mem = s.mem := rfl
@[simp] theorem State.setReg_link (s : State) (fn off : Nat) (v : W64) : (s.setReg fn off v).link = s.link := rfl
@[simp] theorem State.setReg_ctxs (s : State) (fn off : Nat) (v : W64) : (s.setReg fn off v).ctxs = s.ctxs := rfl
@[simp] theorem State.setReg_dom (s : State) (fn off : Nat) (v : W64) : (s.setReg fn off v).dom = s.dom := rfl
@[simp] theorem State.setReg_domNext (s : State) (fn off : Nat) (v : W64) : (s.setReg fn off v).domNext = s.domNext := rfl
@[simp] theorem State.setReg_faults (s : State) (fn off : Nat) (v : W64) : (s.setReg fn off v).faults = s.faults := rfl
@[simp] theorem State.setReg_host (s : State) (fn off : Nat) (v : W64) : (s.setReg fn off v).host = s.host := rfl
@[simp] theorem State.setReg_boot (s : State) (fn off : Nat) (v : W64) : (s.setReg fn off v).boot = s.boot := rfl
@[simp] theorem State.setReg_power (s : State) (fn off : Nat) (v : W64) : (s.setReg fn off v).power = s.power := rfl
@[simp] theorem State.setReg_free (s : State) (fn off : Nat) (v : W64) : (s.setReg fn off v).free = s.free := rfl
@[simp] theorem State.setReg_out (s : State) (fn off : Nat) (v : W64) : (s.setReg fn off v).out = s.out := rfl

/-! ### setField -/

@[simp] theorem State.setField_pending (s : State) (fn off hi lo n : Nat) : (s.setField fn off hi lo n).pending = s.pending := rfl
@[simp] theorem State.setField_tiles (s : State) (fn off hi lo n : Nat) : (s.setField fn off hi lo n).tiles = s.tiles := rfl
@[simp] theorem State.setField_clk (s : State) (fn off hi lo n : Nat) : (s.setField fn off hi lo n).clk = s.clk := rfl
@[simp] theorem State.setField_mem (s : State) (fn off hi lo n : Nat) : (s.setField fn off hi lo n).mem = s.mem := rfl
@[simp] theorem State.setField_link (s : State) (fn off hi lo n : Nat) : (s.setField fn off hi lo n).link = s.link := rfl
@[simp] theorem State.setField_ctxs (s : State) (fn off hi lo n : Nat) : (s.setField fn off hi lo n).ctxs = s.ctxs := rfl
@[simp] theorem State.setField_dom (s : State) (fn off hi lo n : Nat) : (s.setField fn off hi lo n).dom = s.dom := rfl
@[simp] theorem State.setField_domNext (s : State) (fn off hi lo n : Nat) : (s.setField fn off hi lo n).domNext = s.domNext := rfl
@[simp] theorem State.setField_faults (s : State) (fn off hi lo n : Nat) : (s.setField fn off hi lo n).faults = s.faults := rfl
@[simp] theorem State.setField_host (s : State) (fn off hi lo n : Nat) : (s.setField fn off hi lo n).host = s.host := rfl
@[simp] theorem State.setField_boot (s : State) (fn off hi lo n : Nat) : (s.setField fn off hi lo n).boot = s.boot := rfl
@[simp] theorem State.setField_power (s : State) (fn off hi lo n : Nat) : (s.setField fn off hi lo n).power = s.power := rfl
@[simp] theorem State.setField_free (s : State) (fn off hi lo n : Nat) : (s.setField fn off hi lo n).free = s.free := rfl
@[simp] theorem State.setField_out (s : State) (fn off hi lo n : Nat) : (s.setField fn off hi lo n).out = s.out := rfl

/-! ### status -/

@[simp] theorem State.status_pending (s : State) (fn off b : Nat) : (s.status fn off b).pending = s.pending := rfl
@[simp] theorem State.status_tiles (s : State) (fn off b : Nat) : (s.status fn off b).tiles = s.tiles := rfl
@[simp] theorem State.status_clk (s : State) (fn off b : Nat) : (s.status fn off b).clk = s.clk := rfl
@[simp] theorem State.status_mem (s : State) (fn off b : Nat) : (s.status fn off b).mem = s.mem := rfl
@[simp] theorem State.status_link (s : State) (fn off b : Nat) : (s.status fn off b).link = s.link := rfl
@[simp] theorem State.status_ctxs (s : State) (fn off b : Nat) : (s.status fn off b).ctxs = s.ctxs := rfl
@[simp] theorem State.status_dom (s : State) (fn off b : Nat) : (s.status fn off b).dom = s.dom := rfl
@[simp] theorem State.status_domNext (s : State) (fn off b : Nat) : (s.status fn off b).domNext = s.domNext := rfl
@[simp] theorem State.status_faults (s : State) (fn off b : Nat) : (s.status fn off b).faults = s.faults := rfl
@[simp] theorem State.status_host (s : State) (fn off b : Nat) : (s.status fn off b).host = s.host := rfl
@[simp] theorem State.status_boot (s : State) (fn off b : Nat) : (s.status fn off b).boot = s.boot := rfl
@[simp] theorem State.status_power (s : State) (fn off b : Nat) : (s.status fn off b).power = s.power := rfl
@[simp] theorem State.status_free (s : State) (fn off b : Nat) : (s.status fn off b).free = s.free := rfl
@[simp] theorem State.status_out (s : State) (fn off b : Nat) : (s.status fn off b).out = s.out := rfl

/-! ### setTile -/

@[simp] theorem State.setTile_pending (s : State) (k : Nat) (t : Tile) : (s.setTile k t).pending = s.pending := rfl
@[simp] theorem State.setTile_regs (s : State) (k : Nat) (t : Tile) : (s.setTile k t).regs = s.regs := rfl
@[simp] theorem State.setTile_clk (s : State) (k : Nat) (t : Tile) : (s.setTile k t).clk = s.clk := rfl
@[simp] theorem State.setTile_mem (s : State) (k : Nat) (t : Tile) : (s.setTile k t).mem = s.mem := rfl
@[simp] theorem State.setTile_link (s : State) (k : Nat) (t : Tile) : (s.setTile k t).link = s.link := rfl
@[simp] theorem State.setTile_ctxs (s : State) (k : Nat) (t : Tile) : (s.setTile k t).ctxs = s.ctxs := rfl
@[simp] theorem State.setTile_dom (s : State) (k : Nat) (t : Tile) : (s.setTile k t).dom = s.dom := rfl
@[simp] theorem State.setTile_domNext (s : State) (k : Nat) (t : Tile) : (s.setTile k t).domNext = s.domNext := rfl
@[simp] theorem State.setTile_faults (s : State) (k : Nat) (t : Tile) : (s.setTile k t).faults = s.faults := rfl
@[simp] theorem State.setTile_host (s : State) (k : Nat) (t : Tile) : (s.setTile k t).host = s.host := rfl
@[simp] theorem State.setTile_boot (s : State) (k : Nat) (t : Tile) : (s.setTile k t).boot = s.boot := rfl
@[simp] theorem State.setTile_power (s : State) (k : Nat) (t : Tile) : (s.setTile k t).power = s.power := rfl
@[simp] theorem State.setTile_free (s : State) (k : Nat) (t : Tile) : (s.setTile k t).free = s.free := rfl
@[simp] theorem State.setTile_out (s : State) (k : Nat) (t : Tile) : (s.setTile k t).out = s.out := rfl

/-! ### setUnit -/

@[simp] theorem State.setUnit_pending (s : State) (u : Nat) (x : SlipUnit) : (s.setUnit u x).pending = s.pending := rfl
@[simp] theorem State.setUnit_regs (s : State) (u : Nat) (x : SlipUnit) : (s.setUnit u x).regs = s.regs := rfl
@[simp] theorem State.setUnit_tiles (s : State) (u : Nat) (x : SlipUnit) : (s.setUnit u x).tiles = s.tiles := rfl
@[simp] theorem State.setUnit_mem (s : State) (u : Nat) (x : SlipUnit) : (s.setUnit u x).mem = s.mem := rfl
@[simp] theorem State.setUnit_link (s : State) (u : Nat) (x : SlipUnit) : (s.setUnit u x).link = s.link := rfl
@[simp] theorem State.setUnit_ctxs (s : State) (u : Nat) (x : SlipUnit) : (s.setUnit u x).ctxs = s.ctxs := rfl
@[simp] theorem State.setUnit_dom (s : State) (u : Nat) (x : SlipUnit) : (s.setUnit u x).dom = s.dom := rfl
@[simp] theorem State.setUnit_domNext (s : State) (u : Nat) (x : SlipUnit) : (s.setUnit u x).domNext = s.domNext := rfl
@[simp] theorem State.setUnit_faults (s : State) (u : Nat) (x : SlipUnit) : (s.setUnit u x).faults = s.faults := rfl
@[simp] theorem State.setUnit_host (s : State) (u : Nat) (x : SlipUnit) : (s.setUnit u x).host = s.host := rfl
@[simp] theorem State.setUnit_boot (s : State) (u : Nat) (x : SlipUnit) : (s.setUnit u x).boot = s.boot := rfl
@[simp] theorem State.setUnit_power (s : State) (u : Nat) (x : SlipUnit) : (s.setUnit u x).power = s.power := rfl
@[simp] theorem State.setUnit_free (s : State) (u : Nat) (x : SlipUnit) : (s.setUnit u x).free = s.free := rfl
@[simp] theorem State.setUnit_out (s : State) (u : Nat) (x : SlipUnit) : (s.setUnit u x).out = s.out := rfl

/-! ### setRegion -/

@[simp] theorem State.setRegion_pending (s : State) (r : Nat) (x : Region) : (s.setRegion r x).pending = s.pending := rfl
@[simp] theorem State.setRegion_regs (s : State) (r : Nat) (x : Region) : (s.setRegion r x).regs = s.regs := rfl
@[simp] theorem State.setRegion_tiles (s : State) (r : Nat) (x : Region) : (s.setRegion r x).tiles = s.tiles := rfl
@[simp] theorem State.setRegion_mem (s : State) (r : Nat) (x : Region) : (s.setRegion r x).mem = s.mem := rfl
@[simp] theorem State.setRegion_link (s : State) (r : Nat) (x : Region) : (s.setRegion r x).link = s.link := rfl
@[simp] theorem State.setRegion_ctxs (s : State) (r : Nat) (x : Region) : (s.setRegion r x).ctxs = s.ctxs := rfl
@[simp] theorem State.setRegion_dom (s : State) (r : Nat) (x : Region) : (s.setRegion r x).dom = s.dom := rfl
@[simp] theorem State.setRegion_domNext (s : State) (r : Nat) (x : Region) : (s.setRegion r x).domNext = s.domNext := rfl
@[simp] theorem State.setRegion_faults (s : State) (r : Nat) (x : Region) : (s.setRegion r x).faults = s.faults := rfl
@[simp] theorem State.setRegion_host (s : State) (r : Nat) (x : Region) : (s.setRegion r x).host = s.host := rfl
@[simp] theorem State.setRegion_boot (s : State) (r : Nat) (x : Region) : (s.setRegion r x).boot = s.boot := rfl
@[simp] theorem State.setRegion_power (s : State) (r : Nat) (x : Region) : (s.setRegion r x).power = s.power := rfl
@[simp] theorem State.setRegion_free (s : State) (r : Nat) (x : Region) : (s.setRegion r x).free = s.free := rfl
@[simp] theorem State.setRegion_out (s : State) (r : Nat) (x : Region) : (s.setRegion r x).out = s.out := rfl

/-! ### setCtx -/

@[simp] theorem State.setCtx_pending (s : State) (c : Nat) (x : Ctx) : (s.setCtx c x).pending = s.pending := rfl
@[simp] theorem State.setCtx_regs (s : State) (c : Nat) (x : Ctx) : (s.setCtx c x).regs = s.regs := rfl
@[simp] theorem State.setCtx_tiles (s : State) (c : Nat) (x : Ctx) : (s.setCtx c x).tiles = s.tiles := rfl
@[simp] theorem State.setCtx_clk (s : State) (c : Nat) (x : Ctx) : (s.setCtx c x).clk = s.clk := rfl
@[simp] theorem State.setCtx_mem (s : State) (c : Nat) (x : Ctx) : (s.setCtx c x).mem = s.mem := rfl
@[simp] theorem State.setCtx_link (s : State) (c : Nat) (x : Ctx) : (s.setCtx c x).link = s.link := rfl
@[simp] theorem State.setCtx_dom (s : State) (c : Nat) (x : Ctx) : (s.setCtx c x).dom = s.dom := rfl
@[simp] theorem State.setCtx_domNext (s : State) (c : Nat) (x : Ctx) : (s.setCtx c x).domNext = s.domNext := rfl
@[simp] theorem State.setCtx_faults (s : State) (c : Nat) (x : Ctx) : (s.setCtx c x).faults = s.faults := rfl
@[simp] theorem State.setCtx_host (s : State) (c : Nat) (x : Ctx) : (s.setCtx c x).host = s.host := rfl
@[simp] theorem State.setCtx_boot (s : State) (c : Nat) (x : Ctx) : (s.setCtx c x).boot = s.boot := rfl
@[simp] theorem State.setCtx_power (s : State) (c : Nat) (x : Ctx) : (s.setCtx c x).power = s.power := rfl
@[simp] theorem State.setCtx_free (s : State) (c : Nat) (x : Ctx) : (s.setCtx c x).free = s.free := rfl
@[simp] theorem State.setCtx_out (s : State) (c : Nat) (x : Ctx) : (s.setCtx c x).out = s.out := rfl

/-! ### modCtx -/

@[simp] theorem State.modCtx_pending (s : State) (c : Nat) (f : Ctx → Ctx) : (s.modCtx c f).pending = s.pending := rfl
@[simp] theorem State.modCtx_regs (s : State) (c : Nat) (f : Ctx → Ctx) : (s.modCtx c f).regs = s.regs := rfl
@[simp] theorem State.modCtx_tiles (s : State) (c : Nat) (f : Ctx → Ctx) : (s.modCtx c f).tiles = s.tiles := rfl
@[simp] theorem State.modCtx_clk (s : State) (c : Nat) (f : Ctx → Ctx) : (s.modCtx c f).clk = s.clk := rfl
@[simp] theorem State.modCtx_mem (s : State) (c : Nat) (f : Ctx → Ctx) : (s.modCtx c f).mem = s.mem := rfl
@[simp] theorem State.modCtx_link (s : State) (c : Nat) (f : Ctx → Ctx) : (s.modCtx c f).link = s.link := rfl
@[simp] theorem State.modCtx_dom (s : State) (c : Nat) (f : Ctx → Ctx) : (s.modCtx c f).dom = s.dom := rfl
@[simp] theorem State.modCtx_domNext (s : State) (c : Nat) (f : Ctx → Ctx) : (s.modCtx c f).domNext = s.domNext := rfl
@[simp] theorem State.modCtx_faults (s : State) (c : Nat) (f : Ctx → Ctx) : (s.modCtx c f).faults = s.faults := rfl
@[simp] theorem State.modCtx_host (s : State) (c : Nat) (f : Ctx → Ctx) : (s.modCtx c f).host = s.host := rfl
@[simp] theorem State.modCtx_boot (s : State) (c : Nat) (f : Ctx → Ctx) : (s.modCtx c f).boot = s.boot := rfl
@[simp] theorem State.modCtx_power (s : State) (c : Nat) (f : Ctx → Ctx) : (s.modCtx c f).power = s.power := rfl
@[simp] theorem State.modCtx_free (s : State) (c : Nat) (f : Ctx → Ctx) : (s.modCtx c f).free = s.free := rfl
@[simp] theorem State.modCtx_out (s : State) (c : Nat) (f : Ctx → Ctx) : (s.modCtx c f).out = s.out := rfl

/-! ### modStep -/

@[simp] theorem State.modStep_pending (s : State) (c : Nat) (f : StepState → StepState) : (s.modStep c f).pending = s.pending := rfl
@[simp] theorem State.modStep_regs (s : State) (c : Nat) (f : StepState → StepState) : (s.modStep c f).regs = s.regs := rfl
@[simp] theorem State.modStep_tiles (s : State) (c : Nat) (f : StepState → StepState) : (s.modStep c f).tiles = s.tiles := rfl
@[simp] theorem State.modStep_clk (s : State) (c : Nat) (f : StepState → StepState) : (s.modStep c f).clk = s.clk := rfl
@[simp] theorem State.modStep_mem (s : State) (c : Nat) (f : StepState → StepState) : (s.modStep c f).mem = s.mem := rfl
@[simp] theorem State.modStep_link (s : State) (c : Nat) (f : StepState → StepState) : (s.modStep c f).link = s.link := rfl
@[simp] theorem State.modStep_dom (s : State) (c : Nat) (f : StepState → StepState) : (s.modStep c f).dom = s.dom := rfl
@[simp] theorem State.modStep_domNext (s : State) (c : Nat) (f : StepState → StepState) : (s.modStep c f).domNext = s.domNext := rfl
@[simp] theorem State.modStep_faults (s : State) (c : Nat) (f : StepState → StepState) : (s.modStep c f).faults = s.faults := rfl
@[simp] theorem State.modStep_host (s : State) (c : Nat) (f : StepState → StepState) : (s.modStep c f).host = s.host := rfl
@[simp] theorem State.modStep_boot (s : State) (c : Nat) (f : StepState → StepState) : (s.modStep c f).boot = s.boot := rfl
@[simp] theorem State.modStep_power (s : State) (c : Nat) (f : StepState → StepState) : (s.modStep c f).power = s.power := rfl
@[simp] theorem State.modStep_free (s : State) (c : Nat) (f : StepState → StepState) : (s.modStep c f).free = s.free := rfl
@[simp] theorem State.modStep_out (s : State) (c : Nat) (f : StepState → StepState) : (s.modStep c f).out = s.out := rfl

/-! ### emit -/

@[simp] theorem State.emit_pending (s : State) (o : Output) : (s.emit o).pending = s.pending := rfl
@[simp] theorem State.emit_regs (s : State) (o : Output) : (s.emit o).regs = s.regs := rfl
@[simp] theorem State.emit_tiles (s : State) (o : Output) : (s.emit o).tiles = s.tiles := rfl
@[simp] theorem State.emit_clk (s : State) (o : Output) : (s.emit o).clk = s.clk := rfl
@[simp] theorem State.emit_mem (s : State) (o : Output) : (s.emit o).mem = s.mem := rfl
@[simp] theorem State.emit_link (s : State) (o : Output) : (s.emit o).link = s.link := rfl
@[simp] theorem State.emit_ctxs (s : State) (o : Output) : (s.emit o).ctxs = s.ctxs := rfl
@[simp] theorem State.emit_dom (s : State) (o : Output) : (s.emit o).dom = s.dom := rfl
@[simp] theorem State.emit_domNext (s : State) (o : Output) : (s.emit o).domNext = s.domNext := rfl
@[simp] theorem State.emit_faults (s : State) (o : Output) : (s.emit o).faults = s.faults := rfl
@[simp] theorem State.emit_host (s : State) (o : Output) : (s.emit o).host = s.host := rfl
@[simp] theorem State.emit_boot (s : State) (o : Output) : (s.emit o).boot = s.boot := rfl
@[simp] theorem State.emit_power (s : State) (o : Output) : (s.emit o).power = s.power := rfl
@[simp] theorem State.emit_free (s : State) (o : Output) : (s.emit o).free = s.free := rfl

/-! ### setQueue -/

@[simp] theorem State.setQueue_pending (s : State) (fn q : Nat) (x : Queue) : (s.setQueue fn q x).pending = s.pending := rfl
@[simp] theorem State.setQueue_regs (s : State) (fn q : Nat) (x : Queue) : (s.setQueue fn q x).regs = s.regs := rfl
@[simp] theorem State.setQueue_tiles (s : State) (fn q : Nat) (x : Queue) : (s.setQueue fn q x).tiles = s.tiles := rfl
@[simp] theorem State.setQueue_clk (s : State) (fn q : Nat) (x : Queue) : (s.setQueue fn q x).clk = s.clk := rfl
@[simp] theorem State.setQueue_mem (s : State) (fn q : Nat) (x : Queue) : (s.setQueue fn q x).mem = s.mem := rfl
@[simp] theorem State.setQueue_link (s : State) (fn q : Nat) (x : Queue) : (s.setQueue fn q x).link = s.link := rfl
@[simp] theorem State.setQueue_ctxs (s : State) (fn q : Nat) (x : Queue) : (s.setQueue fn q x).ctxs = s.ctxs := rfl
@[simp] theorem State.setQueue_dom (s : State) (fn q : Nat) (x : Queue) : (s.setQueue fn q x).dom = s.dom := rfl
@[simp] theorem State.setQueue_domNext (s : State) (fn q : Nat) (x : Queue) : (s.setQueue fn q x).domNext = s.domNext := rfl
@[simp] theorem State.setQueue_faults (s : State) (fn q : Nat) (x : Queue) : (s.setQueue fn q x).faults = s.faults := rfl
@[simp] theorem State.setQueue_boot (s : State) (fn q : Nat) (x : Queue) : (s.setQueue fn q x).boot = s.boot := rfl
@[simp] theorem State.setQueue_power (s : State) (fn q : Nat) (x : Queue) : (s.setQueue fn q x).power = s.power := rfl
@[simp] theorem State.setQueue_free (s : State) (fn q : Nat) (x : Queue) : (s.setQueue fn q x).free = s.free := rfl
@[simp] theorem State.setQueue_out (s : State) (fn q : Nat) (x : Queue) : (s.setQueue fn q x).out = s.out := rfl

/-! ### setHatch -/

@[simp] theorem State.setHatch_pending (s : State) (fn h : Nat) (x : Hatch) : (s.setHatch fn h x).pending = s.pending := rfl
@[simp] theorem State.setHatch_regs (s : State) (fn h : Nat) (x : Hatch) : (s.setHatch fn h x).regs = s.regs := rfl
@[simp] theorem State.setHatch_tiles (s : State) (fn h : Nat) (x : Hatch) : (s.setHatch fn h x).tiles = s.tiles := rfl
@[simp] theorem State.setHatch_clk (s : State) (fn h : Nat) (x : Hatch) : (s.setHatch fn h x).clk = s.clk := rfl
@[simp] theorem State.setHatch_mem (s : State) (fn h : Nat) (x : Hatch) : (s.setHatch fn h x).mem = s.mem := rfl
@[simp] theorem State.setHatch_link (s : State) (fn h : Nat) (x : Hatch) : (s.setHatch fn h x).link = s.link := rfl
@[simp] theorem State.setHatch_ctxs (s : State) (fn h : Nat) (x : Hatch) : (s.setHatch fn h x).ctxs = s.ctxs := rfl
@[simp] theorem State.setHatch_dom (s : State) (fn h : Nat) (x : Hatch) : (s.setHatch fn h x).dom = s.dom := rfl
@[simp] theorem State.setHatch_domNext (s : State) (fn h : Nat) (x : Hatch) : (s.setHatch fn h x).domNext = s.domNext := rfl
@[simp] theorem State.setHatch_faults (s : State) (fn h : Nat) (x : Hatch) : (s.setHatch fn h x).faults = s.faults := rfl
@[simp] theorem State.setHatch_boot (s : State) (fn h : Nat) (x : Hatch) : (s.setHatch fn h x).boot = s.boot := rfl
@[simp] theorem State.setHatch_power (s : State) (fn h : Nat) (x : Hatch) : (s.setHatch fn h x).power = s.power := rfl
@[simp] theorem State.setHatch_free (s : State) (fn h : Nat) (x : Hatch) : (s.setHatch fn h x).free = s.free := rfl
@[simp] theorem State.setHatch_out (s : State) (fn h : Nat) (x : Hatch) : (s.setHatch fn h x).out = s.out := rfl

/-! ### putStream -/

@[simp] theorem State.putStream_pending (s : State) (fn st : Nat) (x : Stream) : (s.putStream fn st x).pending = s.pending := rfl
@[simp] theorem State.putStream_regs (s : State) (fn st : Nat) (x : Stream) : (s.putStream fn st x).regs = s.regs := rfl
@[simp] theorem State.putStream_tiles (s : State) (fn st : Nat) (x : Stream) : (s.putStream fn st x).tiles = s.tiles := rfl
@[simp] theorem State.putStream_clk (s : State) (fn st : Nat) (x : Stream) : (s.putStream fn st x).clk = s.clk := rfl
@[simp] theorem State.putStream_mem (s : State) (fn st : Nat) (x : Stream) : (s.putStream fn st x).mem = s.mem := rfl
@[simp] theorem State.putStream_link (s : State) (fn st : Nat) (x : Stream) : (s.putStream fn st x).link = s.link := rfl
@[simp] theorem State.putStream_ctxs (s : State) (fn st : Nat) (x : Stream) : (s.putStream fn st x).ctxs = s.ctxs := rfl
@[simp] theorem State.putStream_dom (s : State) (fn st : Nat) (x : Stream) : (s.putStream fn st x).dom = s.dom := rfl
@[simp] theorem State.putStream_domNext (s : State) (fn st : Nat) (x : Stream) : (s.putStream fn st x).domNext = s.domNext := rfl
@[simp] theorem State.putStream_faults (s : State) (fn st : Nat) (x : Stream) : (s.putStream fn st x).faults = s.faults := rfl
@[simp] theorem State.putStream_boot (s : State) (fn st : Nat) (x : Stream) : (s.putStream fn st x).boot = s.boot := rfl
@[simp] theorem State.putStream_power (s : State) (fn st : Nat) (x : Stream) : (s.putStream fn st x).power = s.power := rfl
@[simp] theorem State.putStream_free (s : State) (fn st : Nat) (x : Stream) : (s.putStream fn st x).free = s.free := rfl
@[simp] theorem State.putStream_out (s : State) (fn st : Nat) (x : Stream) : (s.putStream fn st x).out = s.out := rfl

/-! ### setLport -/

@[simp] theorem State.setLport_pending (s : State) (p : Nat) (x : LinkPort) : (s.setLport p x).pending = s.pending := rfl
@[simp] theorem State.setLport_regs (s : State) (p : Nat) (x : LinkPort) : (s.setLport p x).regs = s.regs := rfl
@[simp] theorem State.setLport_tiles (s : State) (p : Nat) (x : LinkPort) : (s.setLport p x).tiles = s.tiles := rfl
@[simp] theorem State.setLport_clk (s : State) (p : Nat) (x : LinkPort) : (s.setLport p x).clk = s.clk := rfl
@[simp] theorem State.setLport_mem (s : State) (p : Nat) (x : LinkPort) : (s.setLport p x).mem = s.mem := rfl
@[simp] theorem State.setLport_ctxs (s : State) (p : Nat) (x : LinkPort) : (s.setLport p x).ctxs = s.ctxs := rfl
@[simp] theorem State.setLport_dom (s : State) (p : Nat) (x : LinkPort) : (s.setLport p x).dom = s.dom := rfl
@[simp] theorem State.setLport_domNext (s : State) (p : Nat) (x : LinkPort) : (s.setLport p x).domNext = s.domNext := rfl
@[simp] theorem State.setLport_faults (s : State) (p : Nat) (x : LinkPort) : (s.setLport p x).faults = s.faults := rfl
@[simp] theorem State.setLport_host (s : State) (p : Nat) (x : LinkPort) : (s.setLport p x).host = s.host := rfl
@[simp] theorem State.setLport_boot (s : State) (p : Nat) (x : LinkPort) : (s.setLport p x).boot = s.boot := rfl
@[simp] theorem State.setLport_power (s : State) (p : Nat) (x : LinkPort) : (s.setLport p x).power = s.power := rfl
@[simp] theorem State.setLport_free (s : State) (p : Nat) (x : LinkPort) : (s.setLport p x).free = s.free := rfl
@[simp] theorem State.setLport_out (s : State) (p : Nat) (x : LinkPort) : (s.setLport p x).out = s.out := rfl

/-! ### modLport -/

@[simp] theorem State.modLport_pending (s : State) (p : Nat) (f : LinkPort → LinkPort) : (s.modLport p f).pending = s.pending := rfl
@[simp] theorem State.modLport_regs (s : State) (p : Nat) (f : LinkPort → LinkPort) : (s.modLport p f).regs = s.regs := rfl
@[simp] theorem State.modLport_tiles (s : State) (p : Nat) (f : LinkPort → LinkPort) : (s.modLport p f).tiles = s.tiles := rfl
@[simp] theorem State.modLport_clk (s : State) (p : Nat) (f : LinkPort → LinkPort) : (s.modLport p f).clk = s.clk := rfl
@[simp] theorem State.modLport_mem (s : State) (p : Nat) (f : LinkPort → LinkPort) : (s.modLport p f).mem = s.mem := rfl
@[simp] theorem State.modLport_ctxs (s : State) (p : Nat) (f : LinkPort → LinkPort) : (s.modLport p f).ctxs = s.ctxs := rfl
@[simp] theorem State.modLport_dom (s : State) (p : Nat) (f : LinkPort → LinkPort) : (s.modLport p f).dom = s.dom := rfl
@[simp] theorem State.modLport_domNext (s : State) (p : Nat) (f : LinkPort → LinkPort) : (s.modLport p f).domNext = s.domNext := rfl
@[simp] theorem State.modLport_faults (s : State) (p : Nat) (f : LinkPort → LinkPort) : (s.modLport p f).faults = s.faults := rfl
@[simp] theorem State.modLport_host (s : State) (p : Nat) (f : LinkPort → LinkPort) : (s.modLport p f).host = s.host := rfl
@[simp] theorem State.modLport_boot (s : State) (p : Nat) (f : LinkPort → LinkPort) : (s.modLport p f).boot = s.boot := rfl
@[simp] theorem State.modLport_power (s : State) (p : Nat) (f : LinkPort → LinkPort) : (s.modLport p f).power = s.power := rfl
@[simp] theorem State.modLport_free (s : State) (p : Nat) (f : LinkPort → LinkPort) : (s.modLport p f).free = s.free := rfl
@[simp] theorem State.modLport_out (s : State) (p : Nat) (f : LinkPort → LinkPort) : (s.modLport p f).out = s.out := rfl

/-! ### setSite -/

@[simp] theorem State.setSite_pending (s : State) (i : Nat) (x : Site) : (s.setSite i x).pending = s.pending := rfl
@[simp] theorem State.setSite_regs (s : State) (i : Nat) (x : Site) : (s.setSite i x).regs = s.regs := rfl
@[simp] theorem State.setSite_tiles (s : State) (i : Nat) (x : Site) : (s.setSite i x).tiles = s.tiles := rfl
@[simp] theorem State.setSite_clk (s : State) (i : Nat) (x : Site) : (s.setSite i x).clk = s.clk := rfl
@[simp] theorem State.setSite_link (s : State) (i : Nat) (x : Site) : (s.setSite i x).link = s.link := rfl
@[simp] theorem State.setSite_ctxs (s : State) (i : Nat) (x : Site) : (s.setSite i x).ctxs = s.ctxs := rfl
@[simp] theorem State.setSite_dom (s : State) (i : Nat) (x : Site) : (s.setSite i x).dom = s.dom := rfl
@[simp] theorem State.setSite_domNext (s : State) (i : Nat) (x : Site) : (s.setSite i x).domNext = s.domNext := rfl
@[simp] theorem State.setSite_faults (s : State) (i : Nat) (x : Site) : (s.setSite i x).faults = s.faults := rfl
@[simp] theorem State.setSite_host (s : State) (i : Nat) (x : Site) : (s.setSite i x).host = s.host := rfl
@[simp] theorem State.setSite_boot (s : State) (i : Nat) (x : Site) : (s.setSite i x).boot = s.boot := rfl
@[simp] theorem State.setSite_power (s : State) (i : Nat) (x : Site) : (s.setSite i x).power = s.power := rfl
@[simp] theorem State.setSite_free (s : State) (i : Nat) (x : Site) : (s.setSite i x).free = s.free := rfl
@[simp] theorem State.setSite_out (s : State) (i : Nat) (x : Site) : (s.setSite i x).out = s.out := rfl

/-! ### setSpdm -/

@[simp] theorem State.setSpdm_pending (s : State) (who : Option Nat) (x : Spdm) : (s.setSpdm who x).pending = s.pending := rfl
@[simp] theorem State.setSpdm_regs (s : State) (who : Option Nat) (x : Spdm) : (s.setSpdm who x).regs = s.regs := rfl
@[simp] theorem State.setSpdm_tiles (s : State) (who : Option Nat) (x : Spdm) : (s.setSpdm who x).tiles = s.tiles := rfl
@[simp] theorem State.setSpdm_clk (s : State) (who : Option Nat) (x : Spdm) : (s.setSpdm who x).clk = s.clk := rfl
@[simp] theorem State.setSpdm_mem (s : State) (who : Option Nat) (x : Spdm) : (s.setSpdm who x).mem = s.mem := rfl
@[simp] theorem State.setSpdm_link (s : State) (who : Option Nat) (x : Spdm) : (s.setSpdm who x).link = s.link := rfl
@[simp] theorem State.setSpdm_ctxs (s : State) (who : Option Nat) (x : Spdm) : (s.setSpdm who x).ctxs = s.ctxs := rfl
@[simp] theorem State.setSpdm_dom (s : State) (who : Option Nat) (x : Spdm) : (s.setSpdm who x).dom = s.dom := rfl
@[simp] theorem State.setSpdm_domNext (s : State) (who : Option Nat) (x : Spdm) : (s.setSpdm who x).domNext = s.domNext := rfl
@[simp] theorem State.setSpdm_faults (s : State) (who : Option Nat) (x : Spdm) : (s.setSpdm who x).faults = s.faults := rfl
@[simp] theorem State.setSpdm_host (s : State) (who : Option Nat) (x : Spdm) : (s.setSpdm who x).host = s.host := rfl
@[simp] theorem State.setSpdm_power (s : State) (who : Option Nat) (x : Spdm) : (s.setSpdm who x).power = s.power := rfl
@[simp] theorem State.setSpdm_free (s : State) (who : Option Nat) (x : Spdm) : (s.setSpdm who x).free = s.free := rfl
@[simp] theorem State.setSpdm_out (s : State) (who : Option Nat) (x : Spdm) : (s.setSpdm who x).out = s.out := rfl

/-! ### advanceTo -/

@[simp] theorem State.advanceTo_pending (s : State) (n : Nat) : (s.advanceTo n).pending = s.pending := rfl
@[simp] theorem State.advanceTo_regs (s : State) (n : Nat) : (s.advanceTo n).regs = s.regs := rfl
@[simp] theorem State.advanceTo_tiles (s : State) (n : Nat) : (s.advanceTo n).tiles = s.tiles := rfl
@[simp] theorem State.advanceTo_mem (s : State) (n : Nat) : (s.advanceTo n).mem = s.mem := rfl
@[simp] theorem State.advanceTo_link (s : State) (n : Nat) : (s.advanceTo n).link = s.link := rfl
@[simp] theorem State.advanceTo_ctxs (s : State) (n : Nat) : (s.advanceTo n).ctxs = s.ctxs := rfl
@[simp] theorem State.advanceTo_dom (s : State) (n : Nat) : (s.advanceTo n).dom = s.dom := rfl
@[simp] theorem State.advanceTo_domNext (s : State) (n : Nat) : (s.advanceTo n).domNext = s.domNext := rfl
@[simp] theorem State.advanceTo_faults (s : State) (n : Nat) : (s.advanceTo n).faults = s.faults := rfl
@[simp] theorem State.advanceTo_host (s : State) (n : Nat) : (s.advanceTo n).host = s.host := rfl
@[simp] theorem State.advanceTo_boot (s : State) (n : Nat) : (s.advanceTo n).boot = s.boot := rfl
@[simp] theorem State.advanceTo_power (s : State) (n : Nat) : (s.advanceTo n).power = s.power := rfl
@[simp] theorem State.advanceTo_free (s : State) (n : Nat) : (s.advanceTo n).free = s.free := rfl
@[simp] theorem State.advanceTo_out (s : State) (n : Nat) : (s.advanceTo n).out = s.out := rfl

/-! ### addRepair -/

@[simp] theorem State.addRepair_pending (s : State) (e : W64) : (s.addRepair e).pending = s.pending := rfl
@[simp] theorem State.addRepair_regs (s : State) (e : W64) : (s.addRepair e).regs = s.regs := rfl
@[simp] theorem State.addRepair_tiles (s : State) (e : W64) : (s.addRepair e).tiles = s.tiles := rfl
@[simp] theorem State.addRepair_clk (s : State) (e : W64) : (s.addRepair e).clk = s.clk := rfl
@[simp] theorem State.addRepair_mem (s : State) (e : W64) : (s.addRepair e).mem = s.mem := rfl
@[simp] theorem State.addRepair_link (s : State) (e : W64) : (s.addRepair e).link = s.link := rfl
@[simp] theorem State.addRepair_ctxs (s : State) (e : W64) : (s.addRepair e).ctxs = s.ctxs := rfl
@[simp] theorem State.addRepair_dom (s : State) (e : W64) : (s.addRepair e).dom = s.dom := rfl
@[simp] theorem State.addRepair_domNext (s : State) (e : W64) : (s.addRepair e).domNext = s.domNext := rfl
@[simp] theorem State.addRepair_host (s : State) (e : W64) : (s.addRepair e).host = s.host := rfl
@[simp] theorem State.addRepair_boot (s : State) (e : W64) : (s.addRepair e).boot = s.boot := rfl
@[simp] theorem State.addRepair_power (s : State) (e : W64) : (s.addRepair e).power = s.power := rfl
@[simp] theorem State.addRepair_free (s : State) (e : W64) : (s.addRepair e).free = s.free := rfl
@[simp] theorem State.addRepair_out (s : State) (e : W64) : (s.addRepair e).out = s.out := rfl

/-! ### finish -/

@[simp] theorem State.finish_pending (s : State) (d : DescRef) (st result : Nat) : (s.finish d st result).pending = s.pending := rfl
@[simp] theorem State.finish_regs (s : State) (d : DescRef) (st result : Nat) : (s.finish d st result).regs = s.regs := rfl
@[simp] theorem State.finish_tiles (s : State) (d : DescRef) (st result : Nat) : (s.finish d st result).tiles = s.tiles := rfl
@[simp] theorem State.finish_clk (s : State) (d : DescRef) (st result : Nat) : (s.finish d st result).clk = s.clk := rfl
@[simp] theorem State.finish_mem (s : State) (d : DescRef) (st result : Nat) : (s.finish d st result).mem = s.mem := rfl
@[simp] theorem State.finish_link (s : State) (d : DescRef) (st result : Nat) : (s.finish d st result).link = s.link := rfl
@[simp] theorem State.finish_ctxs (s : State) (d : DescRef) (st result : Nat) : (s.finish d st result).ctxs = s.ctxs := rfl
@[simp] theorem State.finish_dom (s : State) (d : DescRef) (st result : Nat) : (s.finish d st result).dom = s.dom := rfl
@[simp] theorem State.finish_domNext (s : State) (d : DescRef) (st result : Nat) : (s.finish d st result).domNext = s.domNext := rfl
@[simp] theorem State.finish_faults (s : State) (d : DescRef) (st result : Nat) : (s.finish d st result).faults = s.faults := rfl
@[simp] theorem State.finish_boot (s : State) (d : DescRef) (st result : Nat) : (s.finish d st result).boot = s.boot := rfl
@[simp] theorem State.finish_power (s : State) (d : DescRef) (st result : Nat) : (s.finish d st result).power = s.power := rfl
@[simp] theorem State.finish_free (s : State) (d : DescRef) (st result : Nat) : (s.finish d st result).free = s.free := rfl
@[simp] theorem State.finish_out (s : State) (d : DescRef) (st result : Nat) : (s.finish d st result).out = s.out := rfl

/-! ### Reading back -/

theorem State.tile_setTile (s : State) (k j : Nat) (t : Tile) : (s.setTile k t).tile j = if j = k then t else s.tile j := mget_mset _ _ _ _ _
@[simp] theorem State.tile_setTile_same (s : State) (k : Nat) (t : Tile) : (s.setTile k t).tile k = t := mget_mset_same _ _ _ _
theorem State.tile_setTile_other {s : State} {k j : Nat} {t : Tile} (h : j ≠ k) : (s.setTile k t).tile j = s.tile j :=
  mget_mset_other _ _ _ h

theorem State.unit_setUnit (s : State) (u v : Nat) (x : SlipUnit) : (s.setUnit u x).unit v = if v = u then x else s.unit v :=
  mget_mset _ _ _ _ _
@[simp] theorem State.unit_setUnit_same (s : State) (u : Nat) (x : SlipUnit) : (s.setUnit u x).unit u = x := mget_mset_same _ _ _ _

theorem State.region_setRegion (s : State) (r q : Nat) (x : Region) : (s.setRegion r x).region q = if q = r then x else s.region q :=
  mget_mset _ _ _ _ _
@[simp] theorem State.region_setRegion_same (s : State) (r : Nat) (x : Region) : (s.setRegion r x).region r = x := mget_mset_same _ _ _ _

theorem State.ctx_setCtx (s : State) (c d : Nat) (x : Ctx) : (s.setCtx c x).ctx d = if d = c then x else s.ctx d := mget_mset _ _ _ _ _
@[simp] theorem State.ctx_setCtx_same (s : State) (c : Nat) (x : Ctx) : (s.setCtx c x).ctx c = x := mget_mset_same _ _ _ _
theorem State.ctx_modCtx (s : State) (c d : Nat) (f : Ctx → Ctx) : (s.modCtx c f).ctx d = if d = c then f (s.ctx c) else s.ctx d :=
  mget_mset _ _ _ _ _
@[simp] theorem State.ctx_modCtx_same (s : State) (c : Nat) (f : Ctx → Ctx) : (s.modCtx c f).ctx c = f (s.ctx c) := mget_mset_same _ _ _ _
@[simp] theorem State.ctx_modStep_same (s : State) (c : Nat) (f : StepState → StepState) :
    (s.modStep c f).ctx c = { s.ctx c with step := f (s.ctx c).step } := mget_mset_same _ _ _ _

theorem State.queue_setQueue (s : State) (fn q g r : Nat) (x : Queue) :
    (s.setQueue fn q x).queue g r = if g * 64 + r = fn * 64 + q then x else s.queue g r := mget_mset _ _ _ _ _
@[simp] theorem State.queue_setQueue_same (s : State) (fn q : Nat) (x : Queue) : (s.setQueue fn q x).queue fn q = x := mget_mset_same _ _ _ _

theorem State.hatch_setHatch (s : State) (fn h g i : Nat) (x : Hatch) :
    (s.setHatch fn h x).hatch g i = if g * 16 + i = fn * 16 + h then x else s.hatch g i := mget_mset _ _ _ _ _
@[simp] theorem State.hatch_setHatch_same (s : State) (fn h : Nat) (x : Hatch) : (s.setHatch fn h x).hatch fn h = x := mget_mset_same _ _ _ _

theorem State.lport_setLport (s : State) (p q : Nat) (x : LinkPort) : (s.setLport p x).lport q = if q = p then x else s.lport q :=
  mget_mset _ _ _ _ _
@[simp] theorem State.lport_setLport_same (s : State) (p : Nat) (x : LinkPort) : (s.setLport p x).lport p = x := mget_mset_same _ _ _ _
theorem State.lport_modLport (s : State) (p q : Nat) (f : LinkPort → LinkPort) :
    (s.modLport p f).lport q = if q = p then f (s.lport p) else s.lport q := mget_mset _ _ _ _ _
@[simp] theorem State.lport_modLport_same (s : State) (p : Nat) (f : LinkPort → LinkPort) : (s.modLport p f).lport p = f (s.lport p) :=
  mget_mset_same _ _ _ _

@[simp] theorem State.site_setSite_same (s : State) (i : Nat) (x : Site) : (s.setSite i x).site i = x := mget_mset_same _ _ _ _
@[simp] theorem State.spdm_setSpdm_same (s : State) (who : Option Nat) (x : Spdm) : (s.setSpdm who x).spdm who = x := mget_mset_same _ _ _ _
theorem State.spdm_setSpdm_other {s : State} {who w : Option Nat} {x : Spdm} (h : spdmKey w ≠ spdmKey who) :
    (s.setSpdm who x).spdm w = s.spdm w := mget_mset_other _ _ _ h

/-! ### What each reading rests on -/

theorem State.tile_congr {s t : State} (e : t.tiles = s.tiles) (k : Nat): t.tile k = s.tile k := by simp only [State.tile, e]
theorem State.unit_congr {s t : State} (e : t.clk = s.clk) (u : Nat): t.unit u = s.unit u := by simp only [State.unit, e]
theorem State.region_congr {s t : State} (e : t.clk = s.clk) (r : Nat): t.region r = s.region r := by simp only [State.region, e]
theorem State.ctx_congr {s t : State} (e : t.ctxs = s.ctxs) (c : Nat): t.ctx c = s.ctx c := by simp only [State.ctx, e]
theorem State.queue_congr {s t : State} (e : t.host = s.host) (fn q : Nat): t.queue fn q = s.queue fn q := by simp only [State.queue, e]
theorem State.hatch_congr {s t : State} (e : t.host = s.host) (fn h : Nat): t.hatch fn h = s.hatch fn h := by simp only [State.hatch, e]
theorem State.stream_congr {s t : State} (e : t.host = s.host) (fn st : Nat): t.stream fn st = s.stream fn st := by simp only [State.stream, e]
theorem State.lport_congr {s t : State} (e : t.link = s.link) (p : Nat): t.lport p = s.lport p := by simp only [State.lport, e]
theorem State.site_congr {s t : State} (e : t.mem = s.mem) (i : Nat): t.site i = s.site i := by simp only [State.site, e]
theorem State.spdm_congr {s t : State} (e : t.boot = s.boot) (who : Option Nat): t.spdm who = s.spdm who := by simp only [State.spdm, e]
theorem State.reg_congr {s t : State} (e : t.regs = s.regs) (fn off : Nat): t.reg fn off = s.reg fn off := by simp only [State.reg, e]
theorem State.field_congr {s t : State} (e : t.regs = s.regs) (fn off hi lo : Nat): t.field fn off hi lo = s.field fn off hi lo := by simp only [State.field, State.field, State.reg, e]
theorem State.nparts_congr {s t : State} (e : t.regs = s.regs) : t.nparts  = s.nparts  := by simp only [State.nparts, State.field, State.reg, e]
theorem State.pstate_congr {s t : State} (e : t.regs = s.regs) (p : Nat): t.pstate p = s.pstate p := by simp only [State.pstate, State.field, State.reg, e]
theorem State.domainMode_congr {s t : State} (e : t.dom = s.dom) : t.domainMode  = s.domainMode  := by simp only [State.domainMode, e]
theorem State.running_congr {s t : State} (e : t.ctxs = s.ctxs) (u : Nat): t.running u = s.running u := by simp only [State.running, e]
theorem State.div_congr {s t : State} (e : t.clk = s.clk) : t.div  = s.div  := by simp only [State.div, e]
theorem State.functions_congr {s t : State} (h : t.regs = s.regs) (hb : t.boot = s.boot) : t.functions = s.functions := by
  simp only [State.functions, State.nparts_congr h, hb]

/-! ### Readings across writes of other parts -/

@[simp] theorem State.tile_of_setReg (s : State) (fn off : Nat) (v : W64) (k2 : Nat): (s.setReg fn off v).tile k2 = s.tile k2 := rfl
@[simp] theorem State.unit_of_setReg (s : State) (fn off : Nat) (v : W64) (u2 : Nat): (s.setReg fn off v).unit u2 = s.unit u2 := rfl
@[simp] theorem State.region_of_setReg (s : State) (fn off : Nat) (v : W64) (r2 : Nat): (s.setReg fn off v).region r2 = s.region r2 := rfl
@[simp] theorem State.ctx_of_setReg (s : State) (fn off : Nat) (v : W64) (c2 : Nat): (s.setReg fn off v).ctx c2 = s.ctx c2 := rfl
@[simp] theorem State.queue_of_setReg (s : State) (fn off : Nat) (v : W64) (fn2 q2 : Nat): (s.setReg fn off v).queue fn2 q2 = s.queue fn2 q2 := rfl
@[simp] theorem State.lport_of_setReg (s : State) (fn off : Nat) (v : W64) (p2 : Nat): (s.setReg fn off v).lport p2 = s.lport p2 := rfl
@[simp] theorem State.domainMode_of_setReg (s : State) (fn off : Nat) (v : W64) : (s.setReg fn off v).domainMode = s.domainMode := rfl
@[simp] theorem State.hatch_of_setReg (s : State) (fn off : Nat) (v : W64) (fn2 h2 : Nat): (s.setReg fn off v).hatch fn2 h2 = s.hatch fn2 h2 := rfl

@[simp] theorem State.tile_of_setField (s : State) (fn off hi lo n : Nat) (k2 : Nat): (s.setField fn off hi lo n).tile k2 = s.tile k2 := rfl
@[simp] theorem State.unit_of_setField (s : State) (fn off hi lo n : Nat) (u2 : Nat): (s.setField fn off hi lo n).unit u2 = s.unit u2 := rfl
@[simp] theorem State.region_of_setField (s : State) (fn off hi lo n : Nat) (r2 : Nat): (s.setField fn off hi lo n).region r2 = s.region r2 := rfl
@[simp] theorem State.ctx_of_setField (s : State) (fn off hi lo n : Nat) (c2 : Nat): (s.setField fn off hi lo n).ctx c2 = s.ctx c2 := rfl
@[simp] theorem State.queue_of_setField (s : State) (fn off hi lo n : Nat) (fn2 q2 : Nat): (s.setField fn off hi lo n).queue fn2 q2 = s.queue fn2 q2 := rfl
@[simp] theorem State.lport_of_setField (s : State) (fn off hi lo n : Nat) (p2 : Nat): (s.setField fn off hi lo n).lport p2 = s.lport p2 := rfl
@[simp] theorem State.domainMode_of_setField (s : State) (fn off hi lo n : Nat) : (s.setField fn off hi lo n).domainMode = s.domainMode := rfl
@[simp] theorem State.hatch_of_setField (s : State) (fn off hi lo n : Nat) (fn2 h2 : Nat): (s.setField fn off hi lo n).hatch fn2 h2 = s.hatch fn2 h2 := rfl

@[simp] theorem State.tile_of_status (s : State) (fn off b : Nat) (k2 : Nat): (s.status fn off b).tile k2 = s.tile k2 := rfl
@[simp] theorem State.unit_of_status (s : State) (fn off b : Nat) (u2 : Nat): (s.status fn off b).unit u2 = s.unit u2 := rfl
@[simp] theorem State.region_of_status (s : State) (fn off b : Nat) (r2 : Nat): (s.status fn off b).region r2 = s.region r2 := rfl
@[simp] theorem State.ctx_of_status (s : State) (fn off b : Nat) (c2 : Nat): (s.status fn off b).ctx c2 = s.ctx c2 := rfl
@[simp] theorem State.queue_of_status (s : State) (fn off b : Nat) (fn2 q2 : Nat): (s.status fn off b).queue fn2 q2 = s.queue fn2 q2 := rfl
@[simp] theorem State.lport_of_status (s : State) (fn off b : Nat) (p2 : Nat): (s.status fn off b).lport p2 = s.lport p2 := rfl
@[simp] theorem State.domainMode_of_status (s : State) (fn off b : Nat) : (s.status fn off b).domainMode = s.domainMode := rfl
@[simp] theorem State.hatch_of_status (s : State) (fn off b : Nat) (fn2 h2 : Nat): (s.status fn off b).hatch fn2 h2 = s.hatch fn2 h2 := rfl

@[simp] theorem State.unit_of_setTile (s : State) (k : Nat) (t : Tile) (u2 : Nat): (s.setTile k t).unit u2 = s.unit u2 := rfl
@[simp] theorem State.region_of_setTile (s : State) (k : Nat) (t : Tile) (r2 : Nat): (s.setTile k t).region r2 = s.region r2 := rfl
@[simp] theorem State.ctx_of_setTile (s : State) (k : Nat) (t : Tile) (c2 : Nat): (s.setTile k t).ctx c2 = s.ctx c2 := rfl
@[simp] theorem State.queue_of_setTile (s : State) (k : Nat) (t : Tile) (fn2 q2 : Nat): (s.setTile k t).queue fn2 q2 = s.queue fn2 q2 := rfl
@[simp] theorem State.lport_of_setTile (s : State) (k : Nat) (t : Tile) (p2 : Nat): (s.setTile k t).lport p2 = s.lport p2 := rfl
@[simp] theorem State.reg_of_setTile (s : State) (k : Nat) (t : Tile) (fn2 off2 : Nat): (s.setTile k t).reg fn2 off2 = s.reg fn2 off2 := rfl
@[simp] theorem State.field_of_setTile (s : State) (k : Nat) (t : Tile) (fn2 off2 hi2 lo2 : Nat): (s.setTile k t).field fn2 off2 hi2 lo2 = s.field fn2 off2 hi2 lo2 := rfl
@[simp] theorem State.functions_of_setTile (s : State) (k : Nat) (t : Tile) : (s.setTile k t).functions = s.functions := rfl
@[simp] theorem State.domainMode_of_setTile (s : State) (k : Nat) (t : Tile) : (s.setTile k t).domainMode = s.domainMode := rfl
@[simp] theorem State.hatch_of_setTile (s : State) (k : Nat) (t : Tile) (fn2 h2 : Nat): (s.setTile k t).hatch fn2 h2 = s.hatch fn2 h2 := rfl
@[simp] theorem State.pstate_of_setTile (s : State) (k : Nat) (t : Tile) (p2 : Nat): (s.setTile k t).pstate p2 = s.pstate p2 := rfl

@[simp] theorem State.tile_of_setUnit (s : State) (u : Nat) (x : SlipUnit) (k2 : Nat): (s.setUnit u x).tile k2 = s.tile k2 := rfl
@[simp] theorem State.ctx_of_setUnit (s : State) (u : Nat) (x : SlipUnit) (c2 : Nat): (s.setUnit u x).ctx c2 = s.ctx c2 := rfl
@[simp] theorem State.queue_of_setUnit (s : State) (u : Nat) (x : SlipUnit) (fn2 q2 : Nat): (s.setUnit u x).queue fn2 q2 = s.queue fn2 q2 := rfl
@[simp] theorem State.lport_of_setUnit (s : State) (u : Nat) (x : SlipUnit) (p2 : Nat): (s.setUnit u x).lport p2 = s.lport p2 := rfl
@[simp] theorem State.reg_of_setUnit (s : State) (u : Nat) (x : SlipUnit) (fn2 off2 : Nat): (s.setUnit u x).reg fn2 off2 = s.reg fn2 off2 := rfl
@[simp] theorem State.field_of_setUnit (s : State) (u : Nat) (x : SlipUnit) (fn2 off2 hi2 lo2 : Nat): (s.setUnit u x).field fn2 off2 hi2 lo2 = s.field fn2 off2 hi2 lo2 := rfl
@[simp] theorem State.functions_of_setUnit (s : State) (u : Nat) (x : SlipUnit) : (s.setUnit u x).functions = s.functions := rfl
@[simp] theorem State.domainMode_of_setUnit (s : State) (u : Nat) (x : SlipUnit) : (s.setUnit u x).domainMode = s.domainMode := rfl
@[simp] theorem State.hatch_of_setUnit (s : State) (u : Nat) (x : SlipUnit) (fn2 h2 : Nat): (s.setUnit u x).hatch fn2 h2 = s.hatch fn2 h2 := rfl
@[simp] theorem State.pstate_of_setUnit (s : State) (u : Nat) (x : SlipUnit) (p2 : Nat): (s.setUnit u x).pstate p2 = s.pstate p2 := rfl

@[simp] theorem State.tile_of_setRegion (s : State) (r : Nat) (x : Region) (k2 : Nat): (s.setRegion r x).tile k2 = s.tile k2 := rfl
@[simp] theorem State.ctx_of_setRegion (s : State) (r : Nat) (x : Region) (c2 : Nat): (s.setRegion r x).ctx c2 = s.ctx c2 := rfl
@[simp] theorem State.queue_of_setRegion (s : State) (r : Nat) (x : Region) (fn2 q2 : Nat): (s.setRegion r x).queue fn2 q2 = s.queue fn2 q2 := rfl
@[simp] theorem State.lport_of_setRegion (s : State) (r : Nat) (x : Region) (p2 : Nat): (s.setRegion r x).lport p2 = s.lport p2 := rfl
@[simp] theorem State.reg_of_setRegion (s : State) (r : Nat) (x : Region) (fn2 off2 : Nat): (s.setRegion r x).reg fn2 off2 = s.reg fn2 off2 := rfl
@[simp] theorem State.field_of_setRegion (s : State) (r : Nat) (x : Region) (fn2 off2 hi2 lo2 : Nat): (s.setRegion r x).field fn2 off2 hi2 lo2 = s.field fn2 off2 hi2 lo2 := rfl
@[simp] theorem State.functions_of_setRegion (s : State) (r : Nat) (x : Region) : (s.setRegion r x).functions = s.functions := rfl
@[simp] theorem State.domainMode_of_setRegion (s : State) (r : Nat) (x : Region) : (s.setRegion r x).domainMode = s.domainMode := rfl
@[simp] theorem State.hatch_of_setRegion (s : State) (r : Nat) (x : Region) (fn2 h2 : Nat): (s.setRegion r x).hatch fn2 h2 = s.hatch fn2 h2 := rfl
@[simp] theorem State.pstate_of_setRegion (s : State) (r : Nat) (x : Region) (p2 : Nat): (s.setRegion r x).pstate p2 = s.pstate p2 := rfl

@[simp] theorem State.tile_of_setCtx (s : State) (c : Nat) (x : Ctx) (k2 : Nat): (s.setCtx c x).tile k2 = s.tile k2 := rfl
@[simp] theorem State.unit_of_setCtx (s : State) (c : Nat) (x : Ctx) (u2 : Nat): (s.setCtx c x).unit u2 = s.unit u2 := rfl
@[simp] theorem State.region_of_setCtx (s : State) (c : Nat) (x : Ctx) (r2 : Nat): (s.setCtx c x).region r2 = s.region r2 := rfl
@[simp] theorem State.queue_of_setCtx (s : State) (c : Nat) (x : Ctx) (fn2 q2 : Nat): (s.setCtx c x).queue fn2 q2 = s.queue fn2 q2 := rfl
@[simp] theorem State.lport_of_setCtx (s : State) (c : Nat) (x : Ctx) (p2 : Nat): (s.setCtx c x).lport p2 = s.lport p2 := rfl
@[simp] theorem State.reg_of_setCtx (s : State) (c : Nat) (x : Ctx) (fn2 off2 : Nat): (s.setCtx c x).reg fn2 off2 = s.reg fn2 off2 := rfl
@[simp] theorem State.field_of_setCtx (s : State) (c : Nat) (x : Ctx) (fn2 off2 hi2 lo2 : Nat): (s.setCtx c x).field fn2 off2 hi2 lo2 = s.field fn2 off2 hi2 lo2 := rfl
@[simp] theorem State.functions_of_setCtx (s : State) (c : Nat) (x : Ctx) : (s.setCtx c x).functions = s.functions := rfl
@[simp] theorem State.domainMode_of_setCtx (s : State) (c : Nat) (x : Ctx) : (s.setCtx c x).domainMode = s.domainMode := rfl
@[simp] theorem State.hatch_of_setCtx (s : State) (c : Nat) (x : Ctx) (fn2 h2 : Nat): (s.setCtx c x).hatch fn2 h2 = s.hatch fn2 h2 := rfl
@[simp] theorem State.pstate_of_setCtx (s : State) (c : Nat) (x : Ctx) (p2 : Nat): (s.setCtx c x).pstate p2 = s.pstate p2 := rfl

@[simp] theorem State.tile_of_modCtx (s : State) (c : Nat) (f : Ctx → Ctx) (k2 : Nat): (s.modCtx c f).tile k2 = s.tile k2 := rfl
@[simp] theorem State.unit_of_modCtx (s : State) (c : Nat) (f : Ctx → Ctx) (u2 : Nat): (s.modCtx c f).unit u2 = s.unit u2 := rfl
@[simp] theorem State.region_of_modCtx (s : State) (c : Nat) (f : Ctx → Ctx) (r2 : Nat): (s.modCtx c f).region r2 = s.region r2 := rfl
@[simp] theorem State.queue_of_modCtx (s : State) (c : Nat) (f : Ctx → Ctx) (fn2 q2 : Nat): (s.modCtx c f).queue fn2 q2 = s.queue fn2 q2 := rfl
@[simp] theorem State.lport_of_modCtx (s : State) (c : Nat) (f : Ctx → Ctx) (p2 : Nat): (s.modCtx c f).lport p2 = s.lport p2 := rfl
@[simp] theorem State.reg_of_modCtx (s : State) (c : Nat) (f : Ctx → Ctx) (fn2 off2 : Nat): (s.modCtx c f).reg fn2 off2 = s.reg fn2 off2 := rfl
@[simp] theorem State.field_of_modCtx (s : State) (c : Nat) (f : Ctx → Ctx) (fn2 off2 hi2 lo2 : Nat): (s.modCtx c f).field fn2 off2 hi2 lo2 = s.field fn2 off2 hi2 lo2 := rfl
@[simp] theorem State.functions_of_modCtx (s : State) (c : Nat) (f : Ctx → Ctx) : (s.modCtx c f).functions = s.functions := rfl
@[simp] theorem State.domainMode_of_modCtx (s : State) (c : Nat) (f : Ctx → Ctx) : (s.modCtx c f).domainMode = s.domainMode := rfl
@[simp] theorem State.hatch_of_modCtx (s : State) (c : Nat) (f : Ctx → Ctx) (fn2 h2 : Nat): (s.modCtx c f).hatch fn2 h2 = s.hatch fn2 h2 := rfl
@[simp] theorem State.pstate_of_modCtx (s : State) (c : Nat) (f : Ctx → Ctx) (p2 : Nat): (s.modCtx c f).pstate p2 = s.pstate p2 := rfl

@[simp] theorem State.tile_of_modStep (s : State) (c : Nat) (f : StepState → StepState) (k2 : Nat): (s.modStep c f).tile k2 = s.tile k2 := rfl
@[simp] theorem State.unit_of_modStep (s : State) (c : Nat) (f : StepState → StepState) (u2 : Nat): (s.modStep c f).unit u2 = s.unit u2 := rfl
@[simp] theorem State.region_of_modStep (s : State) (c : Nat) (f : StepState → StepState) (r2 : Nat): (s.modStep c f).region r2 = s.region r2 := rfl
@[simp] theorem State.queue_of_modStep (s : State) (c : Nat) (f : StepState → StepState) (fn2 q2 : Nat): (s.modStep c f).queue fn2 q2 = s.queue fn2 q2 := rfl
@[simp] theorem State.lport_of_modStep (s : State) (c : Nat) (f : StepState → StepState) (p2 : Nat): (s.modStep c f).lport p2 = s.lport p2 := rfl
@[simp] theorem State.reg_of_modStep (s : State) (c : Nat) (f : StepState → StepState) (fn2 off2 : Nat): (s.modStep c f).reg fn2 off2 = s.reg fn2 off2 := rfl
@[simp] theorem State.field_of_modStep (s : State) (c : Nat) (f : StepState → StepState) (fn2 off2 hi2 lo2 : Nat): (s.modStep c f).field fn2 off2 hi2 lo2 = s.field fn2 off2 hi2 lo2 := rfl
@[simp] theorem State.functions_of_modStep (s : State) (c : Nat) (f : StepState → StepState) : (s.modStep c f).functions = s.functions := rfl
@[simp] theorem State.domainMode_of_modStep (s : State) (c : Nat) (f : StepState → StepState) : (s.modStep c f).domainMode = s.domainMode := rfl
@[simp] theorem State.hatch_of_modStep (s : State) (c : Nat) (f : StepState → StepState) (fn2 h2 : Nat): (s.modStep c f).hatch fn2 h2 = s.hatch fn2 h2 := rfl
@[simp] theorem State.pstate_of_modStep (s : State) (c : Nat) (f : StepState → StepState) (p2 : Nat): (s.modStep c f).pstate p2 = s.pstate p2 := rfl

@[simp] theorem State.tile_of_emit (s : State) (o : Output) (k2 : Nat): (s.emit o).tile k2 = s.tile k2 := rfl
@[simp] theorem State.unit_of_emit (s : State) (o : Output) (u2 : Nat): (s.emit o).unit u2 = s.unit u2 := rfl
@[simp] theorem State.region_of_emit (s : State) (o : Output) (r2 : Nat): (s.emit o).region r2 = s.region r2 := rfl
@[simp] theorem State.ctx_of_emit (s : State) (o : Output) (c2 : Nat): (s.emit o).ctx c2 = s.ctx c2 := rfl
@[simp] theorem State.queue_of_emit (s : State) (o : Output) (fn2 q2 : Nat): (s.emit o).queue fn2 q2 = s.queue fn2 q2 := rfl
@[simp] theorem State.lport_of_emit (s : State) (o : Output) (p2 : Nat): (s.emit o).lport p2 = s.lport p2 := rfl
@[simp] theorem State.reg_of_emit (s : State) (o : Output) (fn2 off2 : Nat): (s.emit o).reg fn2 off2 = s.reg fn2 off2 := rfl
@[simp] theorem State.field_of_emit (s : State) (o : Output) (fn2 off2 hi2 lo2 : Nat): (s.emit o).field fn2 off2 hi2 lo2 = s.field fn2 off2 hi2 lo2 := rfl
@[simp] theorem State.functions_of_emit (s : State) (o : Output) : (s.emit o).functions = s.functions := rfl
@[simp] theorem State.domainMode_of_emit (s : State) (o : Output) : (s.emit o).domainMode = s.domainMode := rfl
@[simp] theorem State.hatch_of_emit (s : State) (o : Output) (fn2 h2 : Nat): (s.emit o).hatch fn2 h2 = s.hatch fn2 h2 := rfl
@[simp] theorem State.pstate_of_emit (s : State) (o : Output) (p2 : Nat): (s.emit o).pstate p2 = s.pstate p2 := rfl

@[simp] theorem State.tile_of_setQueue (s : State) (fn q : Nat) (x : Queue) (k2 : Nat): (s.setQueue fn q x).tile k2 = s.tile k2 := rfl
@[simp] theorem State.unit_of_setQueue (s : State) (fn q : Nat) (x : Queue) (u2 : Nat): (s.setQueue fn q x).unit u2 = s.unit u2 := rfl
@[simp] theorem State.region_of_setQueue (s : State) (fn q : Nat) (x : Queue) (r2 : Nat): (s.setQueue fn q x).region r2 = s.region r2 := rfl
@[simp] theorem State.ctx_of_setQueue (s : State) (fn q : Nat) (x : Queue) (c2 : Nat): (s.setQueue fn q x).ctx c2 = s.ctx c2 := rfl
@[simp] theorem State.lport_of_setQueue (s : State) (fn q : Nat) (x : Queue) (p2 : Nat): (s.setQueue fn q x).lport p2 = s.lport p2 := rfl
@[simp] theorem State.reg_of_setQueue (s : State) (fn q : Nat) (x : Queue) (fn2 off2 : Nat): (s.setQueue fn q x).reg fn2 off2 = s.reg fn2 off2 := rfl
@[simp] theorem State.field_of_setQueue (s : State) (fn q : Nat) (x : Queue) (fn2 off2 hi2 lo2 : Nat): (s.setQueue fn q x).field fn2 off2 hi2 lo2 = s.field fn2 off2 hi2 lo2 := rfl
@[simp] theorem State.functions_of_setQueue (s : State) (fn q : Nat) (x : Queue) : (s.setQueue fn q x).functions = s.functions := rfl
@[simp] theorem State.domainMode_of_setQueue (s : State) (fn q : Nat) (x : Queue) : (s.setQueue fn q x).domainMode = s.domainMode := rfl
@[simp] theorem State.pstate_of_setQueue (s : State) (fn q : Nat) (x : Queue) (p2 : Nat): (s.setQueue fn q x).pstate p2 = s.pstate p2 := rfl

@[simp] theorem State.tile_of_setHatch (s : State) (fn h : Nat) (x : Hatch) (k2 : Nat): (s.setHatch fn h x).tile k2 = s.tile k2 := rfl
@[simp] theorem State.unit_of_setHatch (s : State) (fn h : Nat) (x : Hatch) (u2 : Nat): (s.setHatch fn h x).unit u2 = s.unit u2 := rfl
@[simp] theorem State.region_of_setHatch (s : State) (fn h : Nat) (x : Hatch) (r2 : Nat): (s.setHatch fn h x).region r2 = s.region r2 := rfl
@[simp] theorem State.ctx_of_setHatch (s : State) (fn h : Nat) (x : Hatch) (c2 : Nat): (s.setHatch fn h x).ctx c2 = s.ctx c2 := rfl
@[simp] theorem State.lport_of_setHatch (s : State) (fn h : Nat) (x : Hatch) (p2 : Nat): (s.setHatch fn h x).lport p2 = s.lport p2 := rfl
@[simp] theorem State.reg_of_setHatch (s : State) (fn h : Nat) (x : Hatch) (fn2 off2 : Nat): (s.setHatch fn h x).reg fn2 off2 = s.reg fn2 off2 := rfl
@[simp] theorem State.field_of_setHatch (s : State) (fn h : Nat) (x : Hatch) (fn2 off2 hi2 lo2 : Nat): (s.setHatch fn h x).field fn2 off2 hi2 lo2 = s.field fn2 off2 hi2 lo2 := rfl
@[simp] theorem State.functions_of_setHatch (s : State) (fn h : Nat) (x : Hatch) : (s.setHatch fn h x).functions = s.functions := rfl
@[simp] theorem State.domainMode_of_setHatch (s : State) (fn h : Nat) (x : Hatch) : (s.setHatch fn h x).domainMode = s.domainMode := rfl
@[simp] theorem State.pstate_of_setHatch (s : State) (fn h : Nat) (x : Hatch) (p2 : Nat): (s.setHatch fn h x).pstate p2 = s.pstate p2 := rfl

@[simp] theorem State.tile_of_putStream (s : State) (fn st : Nat) (x : Stream) (k2 : Nat): (s.putStream fn st x).tile k2 = s.tile k2 := rfl
@[simp] theorem State.unit_of_putStream (s : State) (fn st : Nat) (x : Stream) (u2 : Nat): (s.putStream fn st x).unit u2 = s.unit u2 := rfl
@[simp] theorem State.region_of_putStream (s : State) (fn st : Nat) (x : Stream) (r2 : Nat): (s.putStream fn st x).region r2 = s.region r2 := rfl
@[simp] theorem State.ctx_of_putStream (s : State) (fn st : Nat) (x : Stream) (c2 : Nat): (s.putStream fn st x).ctx c2 = s.ctx c2 := rfl
@[simp] theorem State.lport_of_putStream (s : State) (fn st : Nat) (x : Stream) (p2 : Nat): (s.putStream fn st x).lport p2 = s.lport p2 := rfl
@[simp] theorem State.reg_of_putStream (s : State) (fn st : Nat) (x : Stream) (fn2 off2 : Nat): (s.putStream fn st x).reg fn2 off2 = s.reg fn2 off2 := rfl
@[simp] theorem State.field_of_putStream (s : State) (fn st : Nat) (x : Stream) (fn2 off2 hi2 lo2 : Nat): (s.putStream fn st x).field fn2 off2 hi2 lo2 = s.field fn2 off2 hi2 lo2 := rfl
@[simp] theorem State.functions_of_putStream (s : State) (fn st : Nat) (x : Stream) : (s.putStream fn st x).functions = s.functions := rfl
@[simp] theorem State.domainMode_of_putStream (s : State) (fn st : Nat) (x : Stream) : (s.putStream fn st x).domainMode = s.domainMode := rfl
@[simp] theorem State.pstate_of_putStream (s : State) (fn st : Nat) (x : Stream) (p2 : Nat): (s.putStream fn st x).pstate p2 = s.pstate p2 := rfl

@[simp] theorem State.tile_of_setLport (s : State) (p : Nat) (x : LinkPort) (k2 : Nat): (s.setLport p x).tile k2 = s.tile k2 := rfl
@[simp] theorem State.unit_of_setLport (s : State) (p : Nat) (x : LinkPort) (u2 : Nat): (s.setLport p x).unit u2 = s.unit u2 := rfl
@[simp] theorem State.region_of_setLport (s : State) (p : Nat) (x : LinkPort) (r2 : Nat): (s.setLport p x).region r2 = s.region r2 := rfl
@[simp] theorem State.ctx_of_setLport (s : State) (p : Nat) (x : LinkPort) (c2 : Nat): (s.setLport p x).ctx c2 = s.ctx c2 := rfl
@[simp] theorem State.queue_of_setLport (s : State) (p : Nat) (x : LinkPort) (fn2 q2 : Nat): (s.setLport p x).queue fn2 q2 = s.queue fn2 q2 := rfl
@[simp] theorem State.reg_of_setLport (s : State) (p : Nat) (x : LinkPort) (fn2 off2 : Nat): (s.setLport p x).reg fn2 off2 = s.reg fn2 off2 := rfl
@[simp] theorem State.field_of_setLport (s : State) (p : Nat) (x : LinkPort) (fn2 off2 hi2 lo2 : Nat): (s.setLport p x).field fn2 off2 hi2 lo2 = s.field fn2 off2 hi2 lo2 := rfl
@[simp] theorem State.functions_of_setLport (s : State) (p : Nat) (x : LinkPort) : (s.setLport p x).functions = s.functions := rfl
@[simp] theorem State.domainMode_of_setLport (s : State) (p : Nat) (x : LinkPort) : (s.setLport p x).domainMode = s.domainMode := rfl
@[simp] theorem State.hatch_of_setLport (s : State) (p : Nat) (x : LinkPort) (fn2 h2 : Nat): (s.setLport p x).hatch fn2 h2 = s.hatch fn2 h2 := rfl
@[simp] theorem State.pstate_of_setLport (s : State) (p : Nat) (x : LinkPort) (p2 : Nat): (s.setLport p x).pstate p2 = s.pstate p2 := rfl

@[simp] theorem State.tile_of_modLport (s : State) (p : Nat) (f : LinkPort → LinkPort) (k2 : Nat): (s.modLport p f).tile k2 = s.tile k2 := rfl
@[simp] theorem State.unit_of_modLport (s : State) (p : Nat) (f : LinkPort → LinkPort) (u2 : Nat): (s.modLport p f).unit u2 = s.unit u2 := rfl
@[simp] theorem State.region_of_modLport (s : State) (p : Nat) (f : LinkPort → LinkPort) (r2 : Nat): (s.modLport p f).region r2 = s.region r2 := rfl
@[simp] theorem State.ctx_of_modLport (s : State) (p : Nat) (f : LinkPort → LinkPort) (c2 : Nat): (s.modLport p f).ctx c2 = s.ctx c2 := rfl
@[simp] theorem State.queue_of_modLport (s : State) (p : Nat) (f : LinkPort → LinkPort) (fn2 q2 : Nat): (s.modLport p f).queue fn2 q2 = s.queue fn2 q2 := rfl
@[simp] theorem State.reg_of_modLport (s : State) (p : Nat) (f : LinkPort → LinkPort) (fn2 off2 : Nat): (s.modLport p f).reg fn2 off2 = s.reg fn2 off2 := rfl
@[simp] theorem State.field_of_modLport (s : State) (p : Nat) (f : LinkPort → LinkPort) (fn2 off2 hi2 lo2 : Nat): (s.modLport p f).field fn2 off2 hi2 lo2 = s.field fn2 off2 hi2 lo2 := rfl
@[simp] theorem State.functions_of_modLport (s : State) (p : Nat) (f : LinkPort → LinkPort) : (s.modLport p f).functions = s.functions := rfl
@[simp] theorem State.domainMode_of_modLport (s : State) (p : Nat) (f : LinkPort → LinkPort) : (s.modLport p f).domainMode = s.domainMode := rfl
@[simp] theorem State.hatch_of_modLport (s : State) (p : Nat) (f : LinkPort → LinkPort) (fn2 h2 : Nat): (s.modLport p f).hatch fn2 h2 = s.hatch fn2 h2 := rfl
@[simp] theorem State.pstate_of_modLport (s : State) (p : Nat) (f : LinkPort → LinkPort) (p2 : Nat): (s.modLport p f).pstate p2 = s.pstate p2 := rfl

@[simp] theorem State.tile_of_setSite (s : State) (i : Nat) (x : Site) (k2 : Nat): (s.setSite i x).tile k2 = s.tile k2 := rfl
@[simp] theorem State.unit_of_setSite (s : State) (i : Nat) (x : Site) (u2 : Nat): (s.setSite i x).unit u2 = s.unit u2 := rfl
@[simp] theorem State.region_of_setSite (s : State) (i : Nat) (x : Site) (r2 : Nat): (s.setSite i x).region r2 = s.region r2 := rfl
@[simp] theorem State.ctx_of_setSite (s : State) (i : Nat) (x : Site) (c2 : Nat): (s.setSite i x).ctx c2 = s.ctx c2 := rfl
@[simp] theorem State.queue_of_setSite (s : State) (i : Nat) (x : Site) (fn2 q2 : Nat): (s.setSite i x).queue fn2 q2 = s.queue fn2 q2 := rfl
@[simp] theorem State.lport_of_setSite (s : State) (i : Nat) (x : Site) (p2 : Nat): (s.setSite i x).lport p2 = s.lport p2 := rfl
@[simp] theorem State.reg_of_setSite (s : State) (i : Nat) (x : Site) (fn2 off2 : Nat): (s.setSite i x).reg fn2 off2 = s.reg fn2 off2 := rfl
@[simp] theorem State.field_of_setSite (s : State) (i : Nat) (x : Site) (fn2 off2 hi2 lo2 : Nat): (s.setSite i x).field fn2 off2 hi2 lo2 = s.field fn2 off2 hi2 lo2 := rfl
@[simp] theorem State.functions_of_setSite (s : State) (i : Nat) (x : Site) : (s.setSite i x).functions = s.functions := rfl
@[simp] theorem State.domainMode_of_setSite (s : State) (i : Nat) (x : Site) : (s.setSite i x).domainMode = s.domainMode := rfl
@[simp] theorem State.hatch_of_setSite (s : State) (i : Nat) (x : Site) (fn2 h2 : Nat): (s.setSite i x).hatch fn2 h2 = s.hatch fn2 h2 := rfl
@[simp] theorem State.pstate_of_setSite (s : State) (i : Nat) (x : Site) (p2 : Nat): (s.setSite i x).pstate p2 = s.pstate p2 := rfl

@[simp] theorem State.tile_of_setSpdm (s : State) (who : Option Nat) (x : Spdm) (k2 : Nat): (s.setSpdm who x).tile k2 = s.tile k2 := rfl
@[simp] theorem State.unit_of_setSpdm (s : State) (who : Option Nat) (x : Spdm) (u2 : Nat): (s.setSpdm who x).unit u2 = s.unit u2 := rfl
@[simp] theorem State.region_of_setSpdm (s : State) (who : Option Nat) (x : Spdm) (r2 : Nat): (s.setSpdm who x).region r2 = s.region r2 := rfl
@[simp] theorem State.ctx_of_setSpdm (s : State) (who : Option Nat) (x : Spdm) (c2 : Nat): (s.setSpdm who x).ctx c2 = s.ctx c2 := rfl
@[simp] theorem State.queue_of_setSpdm (s : State) (who : Option Nat) (x : Spdm) (fn2 q2 : Nat): (s.setSpdm who x).queue fn2 q2 = s.queue fn2 q2 := rfl
@[simp] theorem State.lport_of_setSpdm (s : State) (who : Option Nat) (x : Spdm) (p2 : Nat): (s.setSpdm who x).lport p2 = s.lport p2 := rfl
@[simp] theorem State.reg_of_setSpdm (s : State) (who : Option Nat) (x : Spdm) (fn2 off2 : Nat): (s.setSpdm who x).reg fn2 off2 = s.reg fn2 off2 := rfl
@[simp] theorem State.field_of_setSpdm (s : State) (who : Option Nat) (x : Spdm) (fn2 off2 hi2 lo2 : Nat): (s.setSpdm who x).field fn2 off2 hi2 lo2 = s.field fn2 off2 hi2 lo2 := rfl
@[simp] theorem State.domainMode_of_setSpdm (s : State) (who : Option Nat) (x : Spdm) : (s.setSpdm who x).domainMode = s.domainMode := rfl
@[simp] theorem State.hatch_of_setSpdm (s : State) (who : Option Nat) (x : Spdm) (fn2 h2 : Nat): (s.setSpdm who x).hatch fn2 h2 = s.hatch fn2 h2 := rfl
@[simp] theorem State.pstate_of_setSpdm (s : State) (who : Option Nat) (x : Spdm) (p2 : Nat): (s.setSpdm who x).pstate p2 = s.pstate p2 := rfl

@[simp] theorem State.tile_of_advanceTo (s : State) (n : Nat) (k2 : Nat): (s.advanceTo n).tile k2 = s.tile k2 := rfl
@[simp] theorem State.ctx_of_advanceTo (s : State) (n : Nat) (c2 : Nat): (s.advanceTo n).ctx c2 = s.ctx c2 := rfl
@[simp] theorem State.queue_of_advanceTo (s : State) (n : Nat) (fn2 q2 : Nat): (s.advanceTo n).queue fn2 q2 = s.queue fn2 q2 := rfl
@[simp] theorem State.lport_of_advanceTo (s : State) (n : Nat) (p2 : Nat): (s.advanceTo n).lport p2 = s.lport p2 := rfl
@[simp] theorem State.reg_of_advanceTo (s : State) (n : Nat) (fn2 off2 : Nat): (s.advanceTo n).reg fn2 off2 = s.reg fn2 off2 := rfl
@[simp] theorem State.field_of_advanceTo (s : State) (n : Nat) (fn2 off2 hi2 lo2 : Nat): (s.advanceTo n).field fn2 off2 hi2 lo2 = s.field fn2 off2 hi2 lo2 := rfl
@[simp] theorem State.functions_of_advanceTo (s : State) (n : Nat) : (s.advanceTo n).functions = s.functions := rfl
@[simp] theorem State.domainMode_of_advanceTo (s : State) (n : Nat) : (s.advanceTo n).domainMode = s.domainMode := rfl
@[simp] theorem State.hatch_of_advanceTo (s : State) (n : Nat) (fn2 h2 : Nat): (s.advanceTo n).hatch fn2 h2 = s.hatch fn2 h2 := rfl
@[simp] theorem State.pstate_of_advanceTo (s : State) (n : Nat) (p2 : Nat): (s.advanceTo n).pstate p2 = s.pstate p2 := rfl

@[simp] theorem State.tile_of_addRepair (s : State) (e : W64) (k2 : Nat): (s.addRepair e).tile k2 = s.tile k2 := rfl
@[simp] theorem State.unit_of_addRepair (s : State) (e : W64) (u2 : Nat): (s.addRepair e).unit u2 = s.unit u2 := rfl
@[simp] theorem State.region_of_addRepair (s : State) (e : W64) (r2 : Nat): (s.addRepair e).region r2 = s.region r2 := rfl
@[simp] theorem State.ctx_of_addRepair (s : State) (e : W64) (c2 : Nat): (s.addRepair e).ctx c2 = s.ctx c2 := rfl
@[simp] theorem State.queue_of_addRepair (s : State) (e : W64) (fn2 q2 : Nat): (s.addRepair e).queue fn2 q2 = s.queue fn2 q2 := rfl
@[simp] theorem State.lport_of_addRepair (s : State) (e : W64) (p2 : Nat): (s.addRepair e).lport p2 = s.lport p2 := rfl
@[simp] theorem State.reg_of_addRepair (s : State) (e : W64) (fn2 off2 : Nat): (s.addRepair e).reg fn2 off2 = s.reg fn2 off2 := rfl
@[simp] theorem State.field_of_addRepair (s : State) (e : W64) (fn2 off2 hi2 lo2 : Nat): (s.addRepair e).field fn2 off2 hi2 lo2 = s.field fn2 off2 hi2 lo2 := rfl
@[simp] theorem State.functions_of_addRepair (s : State) (e : W64) : (s.addRepair e).functions = s.functions := rfl
@[simp] theorem State.domainMode_of_addRepair (s : State) (e : W64) : (s.addRepair e).domainMode = s.domainMode := rfl
@[simp] theorem State.hatch_of_addRepair (s : State) (e : W64) (fn2 h2 : Nat): (s.addRepair e).hatch fn2 h2 = s.hatch fn2 h2 := rfl
@[simp] theorem State.pstate_of_addRepair (s : State) (e : W64) (p2 : Nat): (s.addRepair e).pstate p2 = s.pstate p2 := rfl

@[simp] theorem State.tile_of_finish (s : State) (d : DescRef) (st result : Nat) (k2 : Nat): (s.finish d st result).tile k2 = s.tile k2 := rfl
@[simp] theorem State.unit_of_finish (s : State) (d : DescRef) (st result : Nat) (u2 : Nat): (s.finish d st result).unit u2 = s.unit u2 := rfl
@[simp] theorem State.region_of_finish (s : State) (d : DescRef) (st result : Nat) (r2 : Nat): (s.finish d st result).region r2 = s.region r2 := rfl
@[simp] theorem State.ctx_of_finish (s : State) (d : DescRef) (st result : Nat) (c2 : Nat): (s.finish d st result).ctx c2 = s.ctx c2 := rfl
@[simp] theorem State.lport_of_finish (s : State) (d : DescRef) (st result : Nat) (p2 : Nat): (s.finish d st result).lport p2 = s.lport p2 := rfl
@[simp] theorem State.reg_of_finish (s : State) (d : DescRef) (st result : Nat) (fn2 off2 : Nat): (s.finish d st result).reg fn2 off2 = s.reg fn2 off2 := rfl
@[simp] theorem State.field_of_finish (s : State) (d : DescRef) (st result : Nat) (fn2 off2 hi2 lo2 : Nat): (s.finish d st result).field fn2 off2 hi2 lo2 = s.field fn2 off2 hi2 lo2 := rfl
@[simp] theorem State.functions_of_finish (s : State) (d : DescRef) (st result : Nat) : (s.finish d st result).functions = s.functions := rfl
@[simp] theorem State.domainMode_of_finish (s : State) (d : DescRef) (st result : Nat) : (s.finish d st result).domainMode = s.domainMode := rfl
@[simp] theorem State.pstate_of_finish (s : State) (d : DescRef) (st result : Nat) (p2 : Nat): (s.finish d st result).pstate p2 = s.pstate p2 := rfl

end Sys2Proof.Machine
end

