-- ==== Sys2Proof/Laws/Events.lean ====
section
/-!
SUPPORT. What raising an event, counting and setting a status bit can do (R437 to R440): the registers of the event ring, its records
and the outputs, and nothing else.
-/
namespace Sys2Proof.Machine

/-- The registers that an event record moves: EVT_STATUS, EVT_POS and EVT_DROPPED. -/
def ringRegs : List Nat := [0x60000, 0x60018, 0x60020]

/-- The fault records but for those of the event ring. -/
def FaultState.quiet (x : FaultState) : FaultState := { x with evtUnread := [], evtDue := [] }

/-- `t` differs from `s` in what was recorded and counted only: registers at the offsets `l`, the event ring's records, and outputs
added at the end. -/
structure State.Records (l : List Nat) (s t : State) : Prop where
  pending : t.pending = s.pending
  tiles : t.tiles = s.tiles
  clk : t.clk = s.clk
  mem : t.mem = s.mem
  link : t.link = s.link
  ctxs : t.ctxs = s.ctxs
  dom : t.dom = s.dom
  domNext : t.domNext = s.domNext
  faults : t.faults.quiet = s.faults.quiet
  host : t.host = s.host
  boot : t.boot = s.boot
  power : t.power = s.power
  free : t.free = s.free
  out : ∃ o, t.out = s.out ++ o
  reg : ∀ fn off, off < 2 ^ 24 → off ∉ l → t.reg fn off = s.reg fn off

namespace State.Records

theorem refl (l : List Nat) (s : State) : State.Records l s s :=
  ⟨rfl, rfl, rfl, rfl, rfl, rfl, rfl, rfl, rfl, rfl, rfl, rfl, rfl, ⟨[], by simp⟩, fun _ _ _ _ => rfl⟩

theorem trans {l : List Nat} {s t u : State} (h : State.Records l s t) (g : State.Records l t u) : State.Records l s u := by
  obtain ⟨o, ho⟩ := h.out
  obtain ⟨p, hp⟩ := g.out
  exact ⟨g.pending.trans h.pending, g.tiles.trans h.tiles, g.clk.trans h.clk, g.mem.trans h.mem, g.link.trans h.link,
    g.ctxs.trans h.ctxs, g.dom.trans h.dom, g.domNext.trans h.domNext, g.faults.trans h.faults, g.host.trans h.host,
    g.boot.trans h.boot, g.power.trans h.power, g.free.trans h.free, ⟨o ++ p, by rw [hp, ho, List.append_assoc]⟩,
    fun fn off h1 h2 => (g.reg fn off h1 h2).trans (h.reg fn off h1 h2)⟩

theorem mono {l m : List Nat} {s t : State} (h : State.Records l s t) (hm : ∀ x ∈ l, x ∈ m) : State.Records m s t :=
  { h with reg := fun fn off h1 h2 => h.reg fn off h1 (fun hx => h2 (hm _ hx)) }

theorem foldl {α : Type} {l : List Nat} {f : State → α → State} (hf : ∀ s a, State.Records l s (f s a)) (xs : List α) (s : State) :
    State.Records l s (xs.foldl f s) := by
  induction xs generalizing s with
  | nil => exact refl l s
  | cons x xs ih => exact (hf s x).trans (ih _)

theorem field {l : List Nat} {s t : State} (h : State.Records l s t) (fn off hi lo : Nat) (h1 : off < 2 ^ 24) (h2 : off ∉ l) :
    t.field fn off hi lo = s.field fn off hi lo := by simp only [State.field, h.reg fn off h1 h2]

theorem functions {l : List Nat} {s t : State} (h : State.Records l s t) (hl : 0x28 ∉ l) : t.functions = s.functions := by
  simp only [State.functions, State.nparts, h.boot, h.field 0 0x28 3 0 (by decide) hl]

/-- A write of a register. -/
theorem setReg (s : State) (fn off : Nat) (v : W64) (h : off < 2 ^ 24) : State.Records [off] s (s.setReg fn off v) :=
  ⟨rfl, rfl, rfl, rfl, rfl, rfl, rfl, rfl, rfl, rfl, rfl, rfl, rfl, ⟨[], by simp⟩,
    fun _ _ h1 h2 => State.reg_setReg_other h h1 (by simpa using h2)⟩

theorem setField (s : State) (fn off hi lo n : Nat) (h : off < 2 ^ 24) : State.Records [off] s (s.setField fn off hi lo n) :=
  setReg s fn off _ h

theorem status (s : State) (fn off b : Nat) (h : off < 2 ^ 24) : State.Records [off] s (s.status fn off b) := setReg s fn off _ h

/-- A status bit set in the copies of several functions. -/
theorem statuses (s : State) (fns : List Nat) (off b : Nat) (h : off < 2 ^ 24) :
    State.Records [off] s (fns.foldl (fun (u : State) f => u.status f off b) s) :=
  foldl (fun u f => status u f off b h) fns s

theorem bumpQuiet (s : State) (fn off hi : Nat) (h : off < 2 ^ 24) : State.Records [off, 0x60000] s (s.bumpQuiet fn off hi) := by
  simp only [State.bumpQuiet]
  split
  · exact (((setField s fn off hi 0 _ h).mono (by simp)).trans ((setField _ fn off 63 63 1 h).mono (by simp))).trans
      ((status _ fn 0x60000 4 (by decide)).mono (by simp))
  · exact (setField s fn off hi 0 _ h).mono (by simp)

theorem putRecord (s : State) (fn : Nat) (r : List Byte) : State.Records ringRegs s (s.putRecord fn r) := by
  have hs : ∀ (w : State) (hi lo n : Nat), State.Records ringRegs w (w.setField fn 0x60018 hi lo n) :=
    fun w hi lo n => (setField w fn 0x60018 hi lo n (by decide)).mono (by simp [ringRegs])
  have hf : ∀ (w : State) (f : FaultState) (o : Output), f.quiet = w.faults.quiet →
      State.Records ringRegs w (State.emit { w with faults := f } o) := fun w f o e =>
    ⟨rfl, rfl, rfl, rfl, rfl, rfl, rfl, rfl, e, rfl, rfl, rfl, rfl, ⟨[o], rfl⟩, fun _ _ _ _ => rfl⟩
  simp only [State.putRecord]
  split
  · exact refl _ s
  · split
    · exact ((bumpQuiet s fn 0x60020 31 (by decide)).mono (by simp [ringRegs])).trans
        ((status _ fn 0x60000 0 (by decide)).mono (by simp [ringRegs]))
    · split
      · exact ((hs _ _ _ _).trans (hs _ _ _ _)).trans (hf _ _ _ rfl)
      · exact (hs _ _ _ _).trans (hf _ _ _ rfl)

theorem event (s : State) (fns : List Nat) (code : Nat) (pl : Place) (d0 d1 : Nat) : State.Records ringRegs s (s.event fns code pl d0 d1) :=
  foldl (fun s fn => putRecord s fn _) fns s

theorem eventAll (s : State) (code : Nat) (pl : Place) (d0 d1 : Nat) : State.Records ringRegs s (s.eventAll code pl d0 d1) :=
  event s s.functions code pl d0 d1

theorem bumpAt (s : State) (fn off hi lo n : Nat) (h : off < 2 ^ 24) : State.Records (off :: ringRegs) s (s.bumpAt fn off hi lo n) := by
  simp only [State.bumpAt]
  split
  · exact ((((setField s fn off hi lo _ h).mono (by simp)).trans ((setField _ fn off 63 63 1 h).mono (by simp))).trans
      ((statuses _ (s.counterFns fn off) 0x60000 4 (by decide)).mono (by simp [ringRegs]))).trans ((event _ _ _ _ _ _).mono (by simp [ringRegs]))
  · exact (setField s fn off hi lo _ h).mono (by simp)

theorem bump (s : State) (fn off hi : Nat) (h : off < 2 ^ 24) : State.Records (off :: ringRegs) s (s.bump fn off hi) := bumpAt s fn off hi 0 1 h

end State.Records

/-- What a counter reads after it counts (R437). -/
theorem State.field_bumpAt (s : State) (fn off hi lo n : Nat) (h : off < 2 ^ 24) (hr : off ∉ ringRegs) (hh : hi < 63) :
    (s.bumpAt fn off hi lo n).field fn off hi lo = min (s.field fn off hi lo + n) (2 ^ (hi + 1 - lo) - 1) := by
  have hb : min (s.field fn off hi lo + n) (2 ^ (hi + 1 - lo) - 1) % 2 ^ (hi + 1 - lo) =
      min (s.field fn off hi lo + n) (2 ^ (hi + 1 - lo) - 1) := by
    apply Nat.mod_eq_of_lt
    have := Nat.two_pow_pos (hi + 1 - lo)
    omega
  simp only [State.bumpAt]
  split
  · rw [(State.Records.event _ _ _ _ _ _).field fn off hi lo h hr]
    have : off ≠ 0x60000 := by intro e; exact hr (by simp [e, ringRegs])
    rw [(State.Records.statuses _ (s.counterFns fn off) 0x60000 4 (by decide)).field fn off hi lo h (by simpa using this), State.field_setField_bits _ _ _ _ _ _ _ _ (by decide) (by omega),
      State.field_setField _ _ _ _ _ _ (by omega), hb]
  · rw [State.field_setField _ _ _ _ _ _ (by omega), hb]

theorem State.field_bump (s : State) (fn off hi : Nat) (h : off < 2 ^ 24) (hr : off ∉ ringRegs) (hh : hi < 63) :
    (s.bump fn off hi).field fn off hi 0 = min (s.field fn off hi 0 + 1) (2 ^ (hi + 1) - 1) := by
  exact State.field_bumpAt s fn off hi 0 1 h hr hh

/-! ### The parts that stay -/

theorem State.bumpAt_parts (s : State) (fn off hi lo n : Nat) : ∃ r u l, State.Records l u (s.bumpAt fn off hi lo n) ∧ u = { s with regs := r } := by
  simp only [State.bumpAt]
  split
  · exact ⟨_, _, _, ((State.Records.statuses _ (s.counterFns fn off) 0x60000 4 (by decide)).mono (by simp [ringRegs])).trans
      (State.Records.event _ _ _ _ _ _), rfl⟩
  · exact ⟨_, _, [], State.Records.refl _ _, rfl⟩

@[simp] theorem State.event_pending (s : State) (fns : List Nat) (code : Nat) (pl : Place) (d0 d1 : Nat) : (s.event fns code pl d0 d1).pending = s.pending := (State.Records.event s fns code pl d0 d1).pending
@[simp] theorem State.event_tiles (s : State) (fns : List Nat) (code : Nat) (pl : Place) (d0 d1 : Nat) : (s.event fns code pl d0 d1).tiles = s.tiles := (State.Records.event s fns code pl d0 d1).tiles
@[simp] theorem State.event_clk (s : State) (fns : List Nat) (code : Nat) (pl : Place) (d0 d1 : Nat) : (s.event fns code pl d0 d1).clk = s.clk := (State.Records.event s fns code pl d0 d1).clk
@[simp] theorem State.event_mem (s : State) (fns : List Nat) (code : Nat) (pl : Place) (d0 d1 : Nat) : (s.event fns code pl d0 d1).mem = s.mem := (State.Records.event s fns code pl d0 d1).mem
@[simp] theorem State.event_link (s : State) (fns : List Nat) (code : Nat) (pl : Place) (d0 d1 : Nat) : (s.event fns code pl d0 d1).link = s.link := (State.Records.event s fns code pl d0 d1).link
@[simp] theorem State.event_ctxs (s : State) (fns : List Nat) (code : Nat) (pl : Place) (d0 d1 : Nat) : (s.event fns code pl d0 d1).ctxs = s.ctxs := (State.Records.event s fns code pl d0 d1).ctxs
@[simp] theorem State.event_dom (s : State) (fns : List Nat) (code : Nat) (pl : Place) (d0 d1 : Nat) : (s.event fns code pl d0 d1).dom = s.dom := (State.Records.event s fns code pl d0 d1).dom
@[simp] theorem State.event_domNext (s : State) (fns : List Nat) (code : Nat) (pl : Place) (d0 d1 : Nat) : (s.event fns code pl d0 d1).domNext = s.domNext := (State.Records.event s fns code pl d0 d1).domNext
@[simp] theorem State.event_host (s : State) (fns : List Nat) (code : Nat) (pl : Place) (d0 d1 : Nat) : (s.event fns code pl d0 d1).host = s.host := (State.Records.event s fns code pl d0 d1).host
@[simp] theorem State.event_boot (s : State) (fns : List Nat) (code : Nat) (pl : Place) (d0 d1 : Nat) : (s.event fns code pl d0 d1).boot = s.boot := (State.Records.event s fns code pl d0 d1).boot
@[simp] theorem State.event_power (s : State) (fns : List Nat) (code : Nat) (pl : Place) (d0 d1 : Nat) : (s.event fns code pl d0 d1).power = s.power := (State.Records.event s fns code pl d0 d1).power
@[simp] theorem State.event_free (s : State) (fns : List Nat) (code : Nat) (pl : Place) (d0 d1 : Nat) : (s.event fns code pl d0 d1).free = s.free := (State.Records.event s fns code pl d0 d1).free

@[simp] theorem State.eventAll_pending (s : State) (code : Nat) (pl : Place) (d0 d1 : Nat) : (s.eventAll code pl d0 d1).pending = s.pending := (State.Records.eventAll s code pl d0 d1).pending
@[simp] theorem State.eventAll_tiles (s : State) (code : Nat) (pl : Place) (d0 d1 : Nat) : (s.eventAll code pl d0 d1).tiles = s.tiles := (State.Records.eventAll s code pl d0 d1).tiles
@[simp] theorem State.eventAll_clk (s : State) (code : Nat) (pl : Place) (d0 d1 : Nat) : (s.eventAll code pl d0 d1).clk = s.clk := (State.Records.eventAll s code pl d0 d1).clk
@[simp] theorem State.eventAll_mem (s : State) (code : Nat) (pl : Place) (d0 d1 : Nat) : (s.eventAll code pl d0 d1).mem = s.mem := (State.Records.eventAll s code pl d0 d1).mem
@[simp] theorem State.eventAll_link (s : State) (code : Nat) (pl : Place) (d0 d1 : Nat) : (s.eventAll code pl d0 d1).link = s.link := (State.Records.eventAll s code pl d0 d1).link
@[simp] theorem State.eventAll_ctxs (s : State) (code : Nat) (pl : Place) (d0 d1 : Nat) : (s.eventAll code pl d0 d1).ctxs = s.ctxs := (State.Records.eventAll s code pl d0 d1).ctxs
@[simp] theorem State.eventAll_dom (s : State) (code : Nat) (pl : Place) (d0 d1 : Nat) : (s.eventAll code pl d0 d1).dom = s.dom := (State.Records.eventAll s code pl d0 d1).dom
@[simp] theorem State.eventAll_domNext (s : State) (code : Nat) (pl : Place) (d0 d1 : Nat) : (s.eventAll code pl d0 d1).domNext = s.domNext := (State.Records.eventAll s code pl d0 d1).domNext
@[simp] theorem State.eventAll_host (s : State) (code : Nat) (pl : Place) (d0 d1 : Nat) : (s.eventAll code pl d0 d1).host = s.host := (State.Records.eventAll s code pl d0 d1).host
@[simp] theorem State.eventAll_boot (s : State) (code : Nat) (pl : Place) (d0 d1 : Nat) : (s.eventAll code pl d0 d1).boot = s.boot := (State.Records.eventAll s code pl d0 d1).boot
@[simp] theorem State.eventAll_power (s : State) (code : Nat) (pl : Place) (d0 d1 : Nat) : (s.eventAll code pl d0 d1).power = s.power := (State.Records.eventAll s code pl d0 d1).power
@[simp] theorem State.eventAll_free (s : State) (code : Nat) (pl : Place) (d0 d1 : Nat) : (s.eventAll code pl d0 d1).free = s.free := (State.Records.eventAll s code pl d0 d1).free

@[simp] theorem State.bumpAt_pending (s : State) (fn off hi lo n : Nat) : (s.bumpAt fn off hi lo n).pending = s.pending := by
  obtain ⟨r, u, l, h, rfl⟩ := State.bumpAt_parts s fn off hi lo n; exact h.pending
@[simp] theorem State.bumpAt_tiles (s : State) (fn off hi lo n : Nat) : (s.bumpAt fn off hi lo n).tiles = s.tiles := by
  obtain ⟨r, u, l, h, rfl⟩ := State.bumpAt_parts s fn off hi lo n; exact h.tiles
@[simp] theorem State.bumpAt_clk (s : State) (fn off hi lo n : Nat) : (s.bumpAt fn off hi lo n).clk = s.clk := by
  obtain ⟨r, u, l, h, rfl⟩ := State.bumpAt_parts s fn off hi lo n; exact h.clk
@[simp] theorem State.bumpAt_mem (s : State) (fn off hi lo n : Nat) : (s.bumpAt fn off hi lo n).mem = s.mem := by
  obtain ⟨r, u, l, h, rfl⟩ := State.bumpAt_parts s fn off hi lo n; exact h.mem
@[simp] theorem State.bumpAt_link (s : State) (fn off hi lo n : Nat) : (s.bumpAt fn off hi lo n).link = s.link := by
  obtain ⟨r, u, l, h, rfl⟩ := State.bumpAt_parts s fn off hi lo n; exact h.link
@[simp] theorem State.bumpAt_ctxs (s : State) (fn off hi lo n : Nat) : (s.bumpAt fn off hi lo n).ctxs = s.ctxs := by
  obtain ⟨r, u, l, h, rfl⟩ := State.bumpAt_parts s fn off hi lo n; exact h.ctxs
@[simp] theorem State.bumpAt_dom (s : State) (fn off hi lo n : Nat) : (s.bumpAt fn off hi lo n).dom = s.dom := by
  obtain ⟨r, u, l, h, rfl⟩ := State.bumpAt_parts s fn off hi lo n; exact h.dom
@[simp] theorem State.bumpAt_domNext (s : State) (fn off hi lo n : Nat) : (s.bumpAt fn off hi lo n).domNext = s.domNext := by
  obtain ⟨r, u, l, h, rfl⟩ := State.bumpAt_parts s fn off hi lo n; exact h.domNext
@[simp] theorem State.bumpAt_host (s : State) (fn off hi lo n : Nat) : (s.bumpAt fn off hi lo n).host = s.host := by
  obtain ⟨r, u, l, h, rfl⟩ := State.bumpAt_parts s fn off hi lo n; exact h.host
@[simp] theorem State.bumpAt_boot (s : State) (fn off hi lo n : Nat) : (s.bumpAt fn off hi lo n).boot = s.boot := by
  obtain ⟨r, u, l, h, rfl⟩ := State.bumpAt_parts s fn off hi lo n; exact h.boot
@[simp] theorem State.bumpAt_power (s : State) (fn off hi lo n : Nat) : (s.bumpAt fn off hi lo n).power = s.power := by
  obtain ⟨r, u, l, h, rfl⟩ := State.bumpAt_parts s fn off hi lo n; exact h.power
@[simp] theorem State.bumpAt_free (s : State) (fn off hi lo n : Nat) : (s.bumpAt fn off hi lo n).free = s.free := by
  obtain ⟨r, u, l, h, rfl⟩ := State.bumpAt_parts s fn off hi lo n; exact h.free

@[simp] theorem State.bump_pending (s : State) (fn off hi : Nat) : (s.bump fn off hi).pending = s.pending := State.bumpAt_pending s fn off hi 0 1
@[simp] theorem State.bump_tiles (s : State) (fn off hi : Nat) : (s.bump fn off hi).tiles = s.tiles := State.bumpAt_tiles s fn off hi 0 1
@[simp] theorem State.bump_clk (s : State) (fn off hi : Nat) : (s.bump fn off hi).clk = s.clk := State.bumpAt_clk s fn off hi 0 1
@[simp] theorem State.bump_mem (s : State) (fn off hi : Nat) : (s.bump fn off hi).mem = s.mem := State.bumpAt_mem s fn off hi 0 1
@[simp] theorem State.bump_link (s : State) (fn off hi : Nat) : (s.bump fn off hi).link = s.link := State.bumpAt_link s fn off hi 0 1
@[simp] theorem State.bump_ctxs (s : State) (fn off hi : Nat) : (s.bump fn off hi).ctxs = s.ctxs := State.bumpAt_ctxs s fn off hi 0 1
@[simp] theorem State.bump_dom (s : State) (fn off hi : Nat) : (s.bump fn off hi).dom = s.dom := State.bumpAt_dom s fn off hi 0 1
@[simp] theorem State.bump_domNext (s : State) (fn off hi : Nat) : (s.bump fn off hi).domNext = s.domNext := State.bumpAt_domNext s fn off hi 0 1
@[simp] theorem State.bump_host (s : State) (fn off hi : Nat) : (s.bump fn off hi).host = s.host := State.bumpAt_host s fn off hi 0 1
@[simp] theorem State.bump_boot (s : State) (fn off hi : Nat) : (s.bump fn off hi).boot = s.boot := State.bumpAt_boot s fn off hi 0 1
@[simp] theorem State.bump_power (s : State) (fn off hi : Nat) : (s.bump fn off hi).power = s.power := State.bumpAt_power s fn off hi 0 1
@[simp] theorem State.bump_free (s : State) (fn off hi : Nat) : (s.bump fn off hi).free = s.free := State.bumpAt_free s fn off hi 0 1

end Sys2Proof.Machine
end

