-- ==== Sys2Proof/Laws/Issue.lean ====
section
/-!
SUPPORT. What the shared operation that issues a slot can do, said once: nothing, a step of the front end (an overrun, a miss,
a stall), or one slot issued, with the effect of its operation, without it, or as an illegal operation.
-/
namespace Sys2Proof.Machine

/-- Every outcome of an issue. -/
theorem State.issue_cases (s : State) (k : Nat) (sl : Slot) (w : SlotWord) (ok : Nat → Bool)
    (enc run : State → Tile → Bool → Bool) (eff : Bool → State → State) :
    s.issue k sl w ok enc run eff = s ∨
    s.issue k sl w ok enc run eff = s.modTileSettle k Tile.overrun ∨
    s.issue k sl w ok enc run eff = s.miss k ∨
    s.issue k sl w ok enc run eff = s.modTile k Tile.stallCycle ∨
    ∃ b s0, (s0 = s ∨ s0 = s.modTile k (fun t => t.event .timingBreak)) ∧
      (s.issue k sl w ok enc run eff = s0.slotIssued k sl b ∨
       s.issue k sl w ok enc run eff = (s0.modTile k Tile.illegal).slotIssued k sl b ∨
       ∃ timed, s.issue k sl w ok enc run eff = (eff timed s0).slotIssued k sl b) := by
  generalize hx : s.issue k sl w ok enc run eff = x
  simp only [State.issue] at hx
  split at hx
  · exact .inl hx.symm
  · split at hx
    · exact .inr (.inl hx.symm)
    · exact .inr (.inr (.inl hx.symm))
    · split at hx
      · exact .inl hx.symm
      · split at hx
        · exact .inr (.inr (.inr (.inl hx.symm)))
        · rename_i b _ _ _
          generalize h0 : (if ((s.tile k).issued.isEmpty && (s.tile k).lateFill && (s.tile k).bundleTimed b) = true then
            s.modTile k (fun t => t.event .timingBreak) else s) = s0 at hx
          refine .inr (.inr (.inr (.inr ⟨b, s0, ?_, ?_⟩)))
          · rw [← h0]
            split
            · exact .inr rfl
            · exact .inl rfl
          · rw [← hx]
            split
            · exact .inl rfl
            · split
              · exact .inr (.inl rfl)
              · split
                · exact .inr (.inr ⟨_, rfl⟩)
                · exact .inl rfl

/-- A tile that is ready for a slot word, whose operation takes effect and is legal, has the effect, and the slot has issued. -/
theorem State.issue_ready {s : State} {k : Nat} {sl : Slot} {w : SlotWord} {b : BitVec 256} {ok : Nat → Bool}
    {enc run : State → Tile → Bool → Bool} {eff : Bool → State → State} (h : s.ready k sl w b)
    (hp : (s.tile k).predOk w = true) (ho : ok (opOf w) = true)
    (he : enc s (s.tile k) ((s.tile k).bundleTimed b) = true) (hr : run s (s.tile k) ((s.tile k).bundleTimed b) = true) :
    s.issue k sl w ok enc run eff = (eff ((s.tile k).bundleTimed b) s).slotIssued k sl b := by
  obtain ⟨hm, ⟨i, hl⟩, hs, hi, hst, hil, hv, hlf⟩ := h
  have hs' : (slotOf b sl != w) = false := by simp [hs]
  simp only [State.issue, hm, hl, hs', ho, hi, hst, hil, hv, hlf, hp]
  simp [he, hr]

/-- With a predicate that is not satisfied the slot issues without effect (R109). -/
theorem State.issue_off {s : State} {k : Nat} {sl : Slot} {w : SlotWord} {b : BitVec 256} {ok : Nat → Bool}
    {enc run : State → Tile → Bool → Bool} {eff : Bool → State → State} (h : s.ready k sl w b)
    (hp : (s.tile k).predOk w = false) (ho : ok (opOf w) = true)
    (he : enc s (s.tile k) ((s.tile k).bundleTimed b) = true) :
    s.issue k sl w ok enc run eff = s.slotIssued k sl b := by
  obtain ⟨hm, ⟨i, hl⟩, hs, hi, hst, hil, hv, hlf⟩ := h
  have hs' : (slotOf b sl != w) = false := by simp [hs]
  simp only [State.issue, hm, hl, hs', ho, hi, hst, hil, hv, hlf, hp]
  simp [he]

/-- An illegal encoding, or an illegal operation that would take effect, poisons the tile and breaks, and the slot has issued
without effect (R107). -/
theorem State.issue_illegal {s : State} {k : Nat} {sl : Slot} {w : SlotWord} {b : BitVec 256} {ok : Nat → Bool}
    {enc run : State → Tile → Bool → Bool} {eff : Bool → State → State} (h : s.ready k sl w b) (ho : ok (opOf w) = true)
    (hb : enc s (s.tile k) ((s.tile k).bundleTimed b) = false ∨
      ((s.tile k).predOk w = true ∧ run s (s.tile k) ((s.tile k).bundleTimed b) = false)) :
    s.issue k sl w ok enc run eff = (s.modTile k Tile.illegal).slotIssued k sl b := by
  obtain ⟨hm, ⟨i, hl⟩, hs, hi, hst, hil, hv, hlf⟩ := h
  have hs' : (slotOf b sl != w) = false := by simp [hs]
  rcases hb with he | ⟨hp, hr⟩
  · simp only [State.issue, hm, hl, hs', ho, hi, hst, hil, hv, hlf]
    simp [he]
  · simp only [State.issue, hm, hl, hs', ho, hi, hst, hil, hv, hlf, hp]
    simp [hr]

end Sys2Proof.Machine
end

