-- ==== Sys2Proof/Laws/Lanes.lean ====
section
/-!
SUPPORT. The lanes of a vector value that is computed lane by lane or from a list, and the two ways in which an operation that writes
registers issues.
-/
namespace Sys2Proof.Machine

/-- The 32-bit digits of a number built from lanes. -/
theorem lanes_digit (l : List (BitVec 32)) (i : Nat) :
    l.foldr (fun x acc => x.toNat + 2 ^ 32 * acc) 0 / 2 ^ (32 * i) % 2 ^ 32 = (l.getD i 0).toNat := by
  induction l generalizing i with
  | nil => simp
  | cons x xs ih =>
    cases i with
    | zero =>
      have := x.isLt
      simp only [List.foldr_cons, Nat.mul_zero, Nat.pow_zero, Nat.div_one, List.getD_cons_zero]
      omega
    | succ i =>
      have hx : (x.toNat + 2 ^ 32 * xs.foldr (fun x acc => x.toNat + 2 ^ 32 * acc) 0) / 2 ^ 32 =
          xs.foldr (fun x acc => x.toNat + 2 ^ 32 * acc) 0 := by
        have := x.isLt
        omega
      rw [List.foldr_cons, show 32 * (i + 1) = 32 + 32 * i by omega, Nat.pow_add, ← Nat.div_div_eq_div_mul, hx, ih]
      simp

theorem laneOf_ofLanes (l : List (BitVec 32)) (i : Nat) (h : i < 64) : laneOf (ofLanes l) i = l.getD i 0 := by
  apply BitVec.eq_of_toNat_eq
  rw [← lanes_digit l i]
  simp only [laneOf, ofLanes, BitVec.extractLsb'_toNat, BitVec.toNat_ofNat, Nat.shiftRight_eq_div_pow]
  have : (2 : Nat) ^ 2048 = 2 ^ (32 * i) * 2 ^ (2048 - 32 * i) := by rw [← Nat.pow_add]; congr 1; omega
  rw [this, Nat.mod_mul_right_div_self, Nat.mod_mod_of_dvd]
  exact Nat.pow_dvd_pow 2 (by omega)

theorem laneOf_mapLanes (f : Nat → BitVec 32) (i : Nat) (h : i < 64) : laneOf (mapLanes f) i = f i := by
  rw [mapLanes, laneOf_ofLanes _ _ h]
  simp [laneIdx, List.getD_eq_getElem?_getD, h]

/-- A tile ready for an operation that writes registers: its results are on their way and the slot has issued. -/
theorem State.issueReg_ready {s : State} {k op : Nat} {sl : Slot} {w : SlotWord} {b : BitVec 256} {legal : Bool}
    {res : Tile → List (Nat × Nat × Target)} (h : s.ready k sl w b) (hp : (s.tile k).predOk w = true) (ho : opOf w = op)
    (hl : legal = true) :
    s.issueReg k sl w op legal res =
      .next ((s.setTile k ((res (s.tile k)).foldl (fun t r => t.later r.1 r.2.1 r.2.2) (s.tile k))).slotIssued k sl b) := by
  simp only [State.issueReg]
  rw [State.issue_ready h hp (by simp [ho]) hl rfl]

/-- The same for one result of the V slot. -/
theorem State.issueV_ready {s : State} {k op lat : Nat} {w : SlotWord} {b : BitVec 256} {legal : Bool}
    {f : Tile → BitVec 2048} (h : s.ready k .v w b) (hp : (s.tile k).predOk w = true) (ho : opOf w = op) (hl : legal = true) :
    s.issueV k w op lat legal f = .next ((s.withResult k lat (slotRank .v) (.vreg (vdF w) allLanes (f (s.tile k)))).slotIssued k .v b) :=
  State.issueReg_ready h hp ho hl

end Sys2Proof.Machine
end

