-- ==== Sys2Proof/WellFormed.lean ====
section
/-!
DEFINITION. Well-formed commands: operands that name a part of the block name one that the manual gives it, and a slot word carries the
opcode of its command.
-/
namespace Sys2Proof

/-- The tiles, 64 × 64 (R16). -/
def tileWf (t : Nat) : Bool := decide (t < 4096)

/-- A slot word's opcode (R111). -/
def opIsIn (w : SlotWord) (op : Nat) : Bool := w.toNat / 2 ^ 42 == op

/-- An SPDM responder: a function, or the management port (R389). -/
def whoOk (who : Option Nat) : Bool := match who with | some fn => decide (fn < 8) | none => true

/-- A source of crates: a port or a tile (R228, R240). -/
def sourceOk (src : CrateSource) : Bool := match src with | .port p => decide (p < 24) | .tile k => tileWf k

/-- Whether a command's operands are in range. -/
def Instr.wf (i : Instr) : Bool :=
  match i with
  | .tileNop t slot _ => tileWf t && decide (slot < 5)
  | .icacheLineFillDone t line _ => tileWf t && decide (line < 64)
  | .opResultWriteback t => tileWf t
  | .mmul t w _ => tileWf t && opIsIn w 0x01
  | .mcfg t w => tileWf t && opIsIn w 0x02
  | .arrayStreamStart t => tileWf t
  | .arrayVectorCompare t _ _ _ => tileWf t
  | .arrayResultWrite t => tileWf t
  | .vaddI t w => tileWf t && opIsIn w 0x01
  | .vsubI t w => tileWf t && opIsIn w 0x02
  | .vand t w => tileWf t && opIsIn w 0x03
  | .vor t w => tileWf t && opIsIn w 0x04
  | .vxor t w => tileWf t && opIsIn w 0x05
  | .vshl t w => tileWf t && opIsIn w 0x06
  | .vshr t w => tileWf t && opIsIn w 0x07
  | .vcmpI t w => tileWf t && opIsIn w 0x08
  | .vsel t w => tileWf t && opIsIn w 0x09
  | .vminI t w => tileWf t && opIsIn w 0x0A
  | .vmaxI t w => tileWf t && opIsIn w 0x0B
  | .vabsI t w => tileWf t && opIsIn w 0x0C
  | .vmulI t w => tileWf t && opIsIn w 0x0D
  | .vbcs t w => tileWf t && opIsIn w 0x10
  | .vbcl t w => tileWf t && opIsIn w 0x11
  | .vmvs t w => tileWf t && opIsIn w 0x12
  | .vmsv t w => tileWf t && opIsIn w 0x13
  | .vperm t w => tileWf t && opIsIn w 0x14
  | .vnegF t w => tileWf t && opIsIn w 0x18
  | .vabsF t w => tileWf t && opIsIn w 0x19
  | .vminF t w => tileWf t && opIsIn w 0x1A
  | .vmaxF t w => tileWf t && opIsIn w 0x1B
  | .vcmpF t w => tileWf t && opIsIn w 0x1C
  | .vaddF t w => tileWf t && opIsIn w 0x1D
  | .vsubF t w => tileWf t && opIsIn w 0x1E
  | .vmulF t w => tileWf t && opIsIn w 0x1F
  | .vfmaF t w => tileWf t && opIsIn w 0x20
  | .vcvt t w => tileWf t && opIsIn w 0x24
  | .vmxq t w => tileWf t && opIsIn w 0x25
  | .vexp2 t w => tileWf t && opIsIn w 0x28
  | .vrcp t w => tileWf t && opIsIn w 0x29
  | .vrsq t w => tileWf t && opIsIn w 0x2A
  | .vexp t w => tileWf t && opIsIn w 0x2B
  | .vrmax t w => tileWf t && opIsIn w 0x2C
  | .vrmin t w => tileWf t && opIsIn w 0x2D
  | .vrsum t w => tileWf t && opIsIn w 0x2E
  | .smxMax t w => tileWf t && opIsIn w 0x30
  | .smxSum t w => tileWf t && opIsIn w 0x31
  | .vrng t w => tileWf t && opIsIn w 0x34
  | .lds t w _ => tileWf t && opIsIn w 0x01
  | .sts t w => tileWf t && opIsIn w 0x02
  | .ldv t w _ => tileWf t && opIsIn w 0x03
  | .stv t w => tileWf t && opIsIn w 0x04
  | .asave t w _ => tileWf t && opIsIn w 0x05
  | .aload t w _ => tileWf t && opIsIn w 0x06
  | .aadd t w _ _ => tileWf t && opIsIn w 0x07
  | .crd t w => tileWf t && opIsIn w 0x08
  | .cwr t w _ => tileWf t && opIsIn w 0x09
  | .cellarStreamDone k _ _ => tileWf k
  | .pageRedirect site _ _ _ => decide (site < 12)
  | .xsend t w _ => tileWf t && opIsIn w 0x01
  | .xcrate t w _ => tileWf t && opIsIn w 0x02
  | .xhub t w _ => tileWf t && opIsIn w 0x03
  | .xbind t w => tileWf t && opIsIn w 0x04
  | .meshTransferArrival k _ => tileWf k
  | .crateReceive => true
  | .loop t w => tileWf t && opIsIn w 0x01
  | .dly t w => tileWf t && opIsIn w 0x02
  | .dlyExpire t => tileWf t
  | .bend t w => tileWf t && opIsIn w 0x03
  | .align t w => tileWf t && opIsIn w 0x04
  | .stepm t w => tileWf t && opIsIn w 0x05
  | .halt t w => tileWf t && opIsIn w 0x06
  | .jmp t w => tileWf t && opIsIn w 0x07
  | .br t w => tileWf t && opIsIn w 0x08
  | .cfetch t w => tileWf t && opIsIn w 0x09
  | .pinset t w => tileWf t && opIsIn w 0x0A
  | .achk t w => tileWf t && opIsIn w 0x0B
  | .achkStallTimeout t => tileWf t
  | .sadd t w => tileWf t && opIsIn w 0x10
  | .ssub t w => tileWf t && opIsIn w 0x11
  | .sand t w => tileWf t && opIsIn w 0x12
  | .sor t w => tileWf t && opIsIn w 0x13
  | .sxor t w => tileWf t && opIsIn w 0x14
  | .sshl t w => tileWf t && opIsIn w 0x15
  | .sshr t w => tileWf t && opIsIn w 0x16
  | .ssra t w => tileWf t && opIsIn w 0x17
  | .smul t w => tileWf t && opIsIn w 0x18
  | .saddi t w => tileWf t && opIsIn w 0x19
  | .smovi t w => tileWf t && opIsIn w 0x1A
  | .smvlc t w => tileWf t && opIsIn w 0x1B
  | .pcmp t w => tileWf t && opIsIn w 0x20
  | .pcmpi t w => tileWf t && opIsIn w 0x21
  | .plc t w => tileWf t && opIsIn w 0x22
  | .plog t w => tileWf t && opIsIn w 0x23
  | .debugHalt u => decide (u < 8)
  | .dbgHaltReq fn => decide (fn < 8)
  | .dbgResume fn => decide (fn < 8)
  | .dbgStep fn => decide (fn < 8)
  | .dbgPeek fn _ => decide (fn < 8)
  | .dbgPeekDone fn _ _ => decide (fn < 8)
  | .frameStart _ => true
  | .displacedMark pos => decide (pos < 2621440)
  | .refLost => true
  | .refRelock => true
  | .slotBoundary u => decide (u < 8)
  | .landingBeatStart u => decide (u < 8)
  | .workCyclesDone r => decide (r < 64)
  | .earlyGate r => decide (r < 64)
  | .stretch r sev => decide (r < 64) && decide (sev ≤ 4)
  | .beatCfgWrite fn _ _ _ => decide (fn < 8)
  | .beatCfgApply u => decide (u < 8)
  | .opChange fn q => decide (fn < 8) && decide (q < 64)
  | .opChangeApply => true
  | .refreshWindow _ _ => true
  | .cellarHot site => decide (site < 12)
  | .stagingFetchStart c _ => decide (c < 2048)
  | .vaultPageRead c _ _ _ => decide (c < 2048)
  | .shelfZeroed c _ => decide (c < 2048)
  | .extentZeroed c => decide (c < 2048)
  | .codewordSend p => decide (p < 24)
  | .codewordReceive p cw bad _ => decide (p < 24) && (bad || cw.length == 640)
  | .nakRepeat p => decide (p < 24)
  | .crateIngress src => sourceOk src
  | .fenceRelease _ => true
  | .fenceStall _ => true
  | .laneLockLoss p lane => decide (p < 24) && decide (lane < 4)
  | .laneRelockTimeout p lane => decide (p < 24) && decide (lane < 4)
  | .linkFold p => decide (p < 24)
  | .foldStateReceive p => decide (p < 24)
  | .replayRateInterval p => decide (p < 24)
  | .detectTimeout p => decide (p < 24)
  | .checkMessageSend p => decide (p < 24)
  | .checkMessageReceive p => decide (p < 24)
  | .keyingMessageSend p => decide (p < 24)
  | .keyingMessageReceive p => decide (p < 24)
  | .keyingTimeout p => decide (p < 24)
  | .linkMessageTimeout p _ => decide (p < 24)
  | .probeReceive p => decide (p < 24)
  | .echoReceive p => decide (p < 24)
  | .measureDone p => decide (p < 24)
  | .frameStartCrateReceive p => decide (p < 24)
  | .quarantineCheckSend p => decide (p < 24)
  | .linkRetrain fn p => decide (fn < 8) && decide (p < 24)
  | .faultMessageReceive => true
  | .planStart c _ => decide (c < 2048)
  | .stepCommit c _ => decide (c < 2048)
  | .arrayRowTestDone k _ _ => tileWf k
  | .outputRecordPlace fn h => decide (fn < 8) && decide (h < 16)
  | .requestDescriptorApply c => decide (c < 2048)
  | .cancelOutputStop c _ => decide (c < 2048)
  | .cancelEffect c _ => decide (c < 2048)
  | .logitDelivery k => tileWf k
  | .draw c e _ _ => decide (c < 2048) && decide (e < 16)
  | .sqTail fn q _ _ => decide (fn < 8) && decide (q < 64)
  | .cqHead fn q _ _ => decide (fn < 8) && decide (q < 64)
  | .descriptorFetch fn q _ => decide (fn < 8) && decide (q < 64)
  | .fetchError fn q => decide (fn < 8) && decide (q < 64)
  | .descriptorComplete _ => true
  | .nop fn q => decide (fn < 8) && decide (q < 64)
  | .wait fn q => decide (fn < 8) && decide (q < 64)
  | .waitSatisfied fn q => decide (fn < 8) && decide (q < 64)
  | .waitTimeout fn q => decide (fn < 8) && decide (q < 64)
  | .waitCycleCheck fn _ => decide (fn < 8)
  | .signalSet fn q => decide (fn < 8) && decide (q < 64)
  | .signalAdd fn q => decide (fn < 8) && decide (q < 64)
  | .ctxCreate fn q _ => decide (fn < 8) && decide (q < 64)
  | .ctxDestroy fn q => decide (fn < 8) && decide (q < 64)
  | .ctxTeardownDone c => decide (c < 2048)
  | .planLoad fn q _ => decide (fn < 8) && decide (q < 64)
  | .weightsLoad fn q _ _ _ => decide (fn < 8) && decide (q < 64)
  | .shardAttemptDone c _ _ _ _ => decide (c < 2048)
  | .shardFirstDeadline c _ => decide (c < 2048)
  | .loadTimeout c _ => decide (c < 2048)
  | .weightsSwapStage fn q _ _ => decide (fn < 8) && decide (q < 64)
  | .weightsSwapCommit fn q => decide (fn < 8) && decide (q < 64)
  | .weightsSwapStageAndCommit fn q _ _ => decide (fn < 8) && decide (q < 64)
  | .weightsSwapDirect fn q _ _ => decide (fn < 8) && decide (q < 64)
  | .swapBarrierStart c => decide (c < 2048)
  | .swapCommitDone c _ => decide (c < 2048)
  | .adapterLoad fn q _ _ => decide (fn < 8) && decide (q < 64)
  | .adapterReplace fn q _ _ => decide (fn < 8) && decide (q < 64)
  | .adapterRemove fn q => decide (fn < 8) && decide (q < 64)
  | .adapterSlotTimeout c _ => decide (c < 2048)
  | .reqAdmit fn q _ _ _ _ => decide (fn < 8) && decide (q < 64)
  | .reqFeedTokens fn q _ => decide (fn < 8) && decide (q < 64)
  | .reqFeedData fn q _ => decide (fn < 8) && decide (q < 64)
  | .reqFeedTree fn q _ => decide (fn < 8) && decide (q < 64)
  | .reqCancel fn q => decide (fn < 8) && decide (q < 64)
  | .reqCancelAll fn q => decide (fn < 8) && decide (q < 64)
  | .copy fn q _ _ => decide (fn < 8) && decide (q < 64)
  | .encodeOpen fn q => decide (fn < 8) && decide (q < 64)
  | .encodeFrames fn q => decide (fn < 8) && decide (q < 64)
  | .encodeFramesRelease fn st => decide (fn < 8) && decide (st < 32)
  | .encodeFrameDone fn st _ _ => decide (fn < 8) && decide (st < 32)
  | .encodeClose fn q => decide (fn < 8) && decide (q < 64)
  | .domainStart fn q _ => decide (fn < 8) && decide (q < 64)
  | .domainStop fn q => decide (fn < 8) && decide (q < 64)
  | .domainStopEffect => true
  | .domainResume fn q => decide (fn < 8) && decide (q < 64)
  | .checkpoint fn q _ => decide (fn < 8) && decide (q < 64)
  | .checkpointSnapshot c _ => decide (c < 2048)
  | .checkpointWriteDone c _ => decide (c < 2048)
  | .restore fn q _ _ _ => decide (fn < 8) && decide (q < 64)
  | .attest fn q _ => decide (fn < 8) && decide (q < 64)
  | .attestKey fn q _ => decide (fn < 8) && decide (q < 64)
  | .queueEnable fn q _ _ => decide (fn < 8) && decide (q < 64)
  | .queueDisable fn q _ _ => decide (fn < 8) && decide (q < 64)
  | .hatchEnable fn h _ _ => decide (fn < 8) && decide (h < 16)
  | .hatchDisable fn h _ _ => decide (fn < 8) && decide (h < 16)
  | .hatchFlagRefresh fn h _ _ => decide (fn < 8) && decide (h < 16)
  | .failover fn => decide (fn < 8)
  | .failoverResume fn => decide (fn < 8)
  | .tdispExit fn st => decide (fn < 8) && decide (st < 4)
  | .eventRingEnable fn _ _ => decide (fn < 8)
  | .evtHeadWrite fn _ _ => decide (fn < 8)
  | .eventInterrupt fn => decide (fn < 8)
  | .detWrite fn _ _ => decide (fn < 8)
  | .pwrCapWrite fn _ _ _ => decide (fn < 8)
  | .counterClear fn off _ size _ => decide (fn < 8) && decide (off < 2 ^ 24) && (size == 4 || size == 8)
  | .statusW1c fn off _ size _ => decide (fn < 8) && decide (off < 2 ^ 24) && (size == 4 || size == 8)
  | .registerWrite fn off _ size => decide (fn < 8) && decide (off < 2 ^ 24) && (size == 4 || size == 8)
  | .powerUp _ => true
  | .reversedInput _ => true
  | .perstAssert => true
  | .perstDeassert _ => true
  | .warmBoot => true
  | .readBoot => true
  | .writeBoot off _ => decide (off < 2 ^ 24)
  | .bootRomStart => true
  | .bootPortSwitch => true
  | .bootGo _ _ => true
  | .bootFetchTimeout => true
  | .bootBundleFetched _ _ _ _ _ _ _ => true
  | .bootComplete => true
  | .getVersion who => whoOk who
  | .getCapabilities who => whoOk who
  | .negotiateAlgorithms who _ => whoOk who
  | .getDigests who => whoOk who
  | .getCertificate who _ _ _ => whoOk who
  | .challenge who _ _ => whoOk who
  | .getMeasurements who _ _ => whoOk who
  | .keyExchange who _ => whoOk who
  | .finish who _ => whoOk who
  | .endSession who => whoOk who
  | .pldmSensorRead _ _ _ => true
  | .pldmPowerCapSet _ => true
  | .inputLow _ _ => true
  | .inputHigh _ _ => true
  | .inputLost => true
  | .overvoltage _ => true
  | .currentLimit _ _ => true
  | .overcurrent _ => true
  | .railShort rail _ => decide (rail < 8)
  | .thermalShutdown die _ => decide (die < 3)
  | .thermalHigh _ source _ => decide (source ≤ 66)
  | .thermalHighRepeat => true
  | .coolantHot _ _ => true
  | .coolantCold _ _ => true
  | .rampExceeded _ => true
  | .powerCapExceeded _ => true
  | .watchdogMiss core => decide (1 ≤ core) && decide (core ≤ 11)
  | .firmwareMemoryUe core => decide (1 ≤ core) && decide (core ≤ 11)
  | .laneLockRegained p lane => decide (p < 24) && decide (lane < 4)
  | .lanePresenceDetected p _ _ => decide (p < 24)
  | .equaliseDone p => decide (p < 24)
  | .codewordLock p => decide (p < 24)
  | .cxlLinkDown p => decide (p < 2)
  | .cxlLinkUp p _ _ => decide (p < 2)
  | .doubledRefreshEnd site => decide (site < 12)
  | .tdispMessage fn _ => decide (fn < 8)
  | .ideKeyManagement fn port => decide (fn < 8) && decide (port < 2)
  | .checkpointStageCopyDone c _ => decide (c < 2048)
  | .restoreTimeout c _ => decide (c < 2048)
  | .inputInRange => true

end Sys2Proof
end

