-- ==== Sys2Proof/Tests/Slice0.lean ====
section
/-!
SUPPORT. Tests: ill-formed commands are refused, and for every statement a state and operands that meet its hypotheses together.
The expected values are the spec's or follow from it by hand.
-/
open Sys2Proof Sys2Proof.Machine

namespace Sys2Proof.Tests

set_option Elab.async false

/-! ### Tiles -/

/-- A slot word with a field of bits at each place named. -/
def word (fs : List (Nat × Nat)) : SlotWord := BitVec.ofNat 48 ((fs.map (fun f => f.2 * 2 ^ f.1)).foldl (· + ·) 0)

/-- A bundle that holds one slot word; `unt` makes it untimed. -/
def bundleOf (unt : Bool) (sl : Slot) (w : SlotWord) : BitVec 256 :=
  BitVec.ofNat 256 (w.toNat * 2 ^ (match sl with | .m => 16 | .v => 64 | .l => 112 | .x => 160 | .c => 208) + (if unt then 1 else 0))

/-- A tile that runs a plan of 64 bundles, with one bundle in its cache. -/
def runs (b : BitVec 256) : Tile :=
  { Tile.reset with code := some (64, 0), hold := .free, lines := [(0, { valid := true, bundles := [(0, b)] })] }

/-- A device whose tile 0 runs in the first plan beat of context 0. -/
def with0 (t : Tile) : State :=
  { State.reset with
    tiles := [(0, t)], ctxs := [(0, { phase := .running })],
    clk := { units := [(0, { inBeat := true, started := 1 })], regions := [(0, { bound := some 0, done := false })] } }

/-- `State.ready` as a test. -/
def readyB (s : State) (k : Nat) (sl : Slot) (w : SlotWord) (b : BitVec 256) : Bool :=
  s.mayIssue k && decide ((s.tile k).lookup = .hit 0 b) && decide (slotOf b sl = w) && !(s.tile k).issued.contains sl &&
  !((s.tile k).issued.isEmpty && s.stalls k b) && !(s.tile k).bundleIllegal b && !(s.tile k).achkVoid && !(s.tile k).lateFill

theorem ready_of_readyB {s : State} {k : Nat} {sl : Slot} {w : SlotWord} {b : BitVec 256} (h : readyB s k sl w b = true) :
    s.ready k sl w b := by
  simp only [readyB, Bool.and_eq_true, decide_eq_true_eq, Bool.not_eq_true'] at h
  obtain ⟨⟨⟨⟨⟨⟨⟨h1, h2⟩, h3⟩, h4⟩, h5⟩, h6⟩, h7⟩, h8⟩ := h
  exact ⟨h1, ⟨0, h2⟩, h3, h4, h5, h6, h7, h8⟩

/-- Tile 0 ready for a slot word, with registers. -/
def at0 (unt : Bool) (sl : Slot) (w : SlotWord) (f : Tile → Tile) : State := with0 (f (runs (bundleOf unt sl w)))

/-- Tile 0 is ready for the word, whose predicate reads as named. -/
def okAt (unt : Bool) (sl : Slot) (w : SlotWord) (f : Tile → Tile) (p : Bool) : Bool :=
  readyB (at0 unt sl w f) 0 sl w (bundleOf unt sl w) && decide (((at0 unt sl w f).tile 0).predOk w = p)

/-- A word of a row's opcode with the predicate named and fields that its table admits. -/
def rowWord (r : SlotRow) (p : Nat) : SlotWord :=
  word [(42, r.op), (38, p), (0, match r.slot, r.op with
    | .v, 0x24 => 0x10 | .v, 0x25 => 0x0C | .v, 0x30 => 1 <<< 33 | .v, 0x31 => 1 <<< 33 | _, _ => 0)]

/-- Every operation can meet the hypotheses of FalsePredicateHasNoEffect: PRED 8 is never (R109); a timed LOOP, DLY, BEND, STEPM, HALT,
JMP or BR has no predicate, so the bundle is untimed (R128). -/
theorem test_falsePredicate_hypotheses :
    slotRows.all (fun r => okAt true r.slot (rowWord r 8) id false && decide (opOf (rowWord r 8) = r.op) &&
      ((at0 true r.slot (rowWord r 8) id).tile 0).fieldsLegal false r.slot (rowWord r 8)) = true ∧
    fld (word [(38, 8)]) 41 38 = 8 ∧ fld (word []) 41 38 = 0 := by decide +kernel

/-- A word with a field out of its range or in a wrong place, for each operation that has one. -/
def badWords : List (Slot × SlotWord × Bool) :=
  [(.m, word [(42, 0x01), (14, 36)], false), (.v, word [(42, 0x08), (0, 6)], false), (.v, word [(42, 0x1C), (0, 4)], false),
   (.v, word [(42, 0x24), (0, 15)], false), (.v, word [(42, 0x25)], false), (.v, word [(42, 0x30)], false), (.v, word [(42, 0x31)], false),
   (.l, word [(42, 0x05), (24, 511), (15, 1)], false), (.l, word [(42, 0x06), (24, 511), (15, 1)], false),
   (.l, word [(42, 0x07), (24, 511), (15, 1)], false), (.x, word [(42, 0x02)], true), (.x, word [(42, 0x03), (30, 2)], false),
   (.x, word [(42, 0x04)], true), (.c, word [(42, 0x03)], true), (.c, word [(42, 0x04)], true), (.c, word [(42, 0x08)], false),
   (.c, word [(42, 0x20), (22, 6)], false), (.c, word [(42, 0x21), (22, 6)], false)]

theorem test_illegal_hypotheses :
    badWords.all (fun x => let f := fun t : Tile => { t with elreri := x.2.2 }
      readyB (at0 false x.1 x.2.1 f) 0 x.1 x.2.1 (bundleOf false x.1 x.2.1) &&
      slotRows.any (fun r => decide (r.slot = x.1) && decide (r.op = opOf x.2.1)) &&
      !((at0 false x.1 x.2.1 f).tile 0).fieldsLegal (((at0 false x.1 x.2.1 f).tile 0).bundleTimed (bundleOf false x.1 x.2.1)) x.1 x.2.1) = true := by
  decide +kernel

theorem test_emptySlots_hypotheses :
    (List.range 5).all (fun n => readyB (at0 false (slotOfNat n) 0 id) 0 (slotOfNat n) 0 (bundleOf false (slotOfNat n) 0) &&
      let w := word [(42, 0x3F)]
      readyB (at0 false (slotOfNat n) w id) 0 (slotOfNat n) w (bundleOf false (slotOfNat n) w) &&
      !(definedOps (slotOfNat n)).contains (opOf w)) = true := by decide +kernel

/-- Every operation of LaneResults, MovesAndGroupResults and ScalarAndPredicateResults is ready with a true predicate in some state. -/
theorem test_results_hypotheses :
    slotRows.all (fun r => okAt false r.slot (rowWord r 0) id true &&
      ((at0 false r.slot (rowWord r 0) id).tile 0).fieldsLegal (decide (r.slot ≠ .c ∨ r.op ≠ 0x08)) r.slot (rowWord r 0)) = true ∧
    (intLanes.map LaneRow.op ++ floatLanes.map LaneRow.op).all (fun o => slotRows.any (fun r => decide (r.slot = .v) && decide (r.op = o))) = true ∧
    scalarRows.all (fun x => slotRows.any (fun r => decide (r.slot = .c) && decide (r.op = x.op))) = true := by decide +kernel

/-- Two results for S1 and one for P1 and V2 due at once. -/
def dueTile : Tile :=
  { runs 0 with results := [⟨0, 0, .sreg 1 5⟩, ⟨0, 3, .sreg 1 6⟩, ⟨0, 3, .pred 1 true⟩, ⟨0, 5, .vreg 2 allLanes 7⟩, ⟨0, 1, .vreg 2 1 9⟩, ⟨4, 0, .sreg 1 8⟩] }

theorem test_results_due : ((with0 dueTile).tile 0).nextResult = some 0 ∧ ((with0 dueTile).tile 0).cyc = 0 ∧
    ((with0 dueTile).tile 0).hold = .free := by decide +kernel

/-- R106: C after V in S1; the array's full write of V2 after L's. -/
theorem test_writeback_order :
    (match exec (.opResultWriteback 0) (with0 dueTile) with
     | .next t => decide ((t.tile 0).sreg 1 = 6) && (t.tile 0).predReg 1 && decide (laneOf ((t.tile 0).vreg 2) 0 = 7) &&
        decide ((t.tile 0).results.length = 1)
     | _ => false) = true := by decide +kernel

/-- R63, R116: VADD wraps, VSHR with sign, VCMP below. -/
def lanes2 (f : Tile → Tile) (w : SlotWord) (c : SlotWord → Instr) : BitVec 32 :=
  match exec (c w) (at0 false .v w (fun t => f { t with v := [(1, 0x80000000#2048), (2, 0x80000001#2048)] })) with
  | .next t => match (t.tile 0).results with | [⟨_, _, .vreg _ _ v⟩] => laneOf v 0 | _ => 0
  | _ => 0

theorem test_vector_results :
    lanes2 id (word [(42, 0x01), (33, 3), (28, 1), (23, 2)]) (.vaddI 0) = 1 ∧
    lanes2 id (word [(42, 0x07), (33, 3), (28, 1), (17, 1), (16, 1), (0, 31)]) (.vshr 0) = 0xFFFFFFFF ∧
    lanes2 id (word [(42, 0x08), (33, 3), (28, 1), (23, 2), (0, 4)]) (.vcmpI 0) = 0xFFFFFFFF ∧
    lanes2 id (word [(42, 0x0A), (33, 3), (28, 1), (23, 2)]) (.vminI 0) = 0x80000000 := by decide +kernel

/-- R129, R126: the control operations of ControlOperations are ready, a timed LOOP with count 0 and BEND in Elreri mode among them. -/
theorem test_control_hypotheses :
    [0x01, 0x02, 0x03, 0x04, 0x06, 0x07, 0x08].all (fun o => okAt false .c (word [(42, o)]) id true && okAt true .c (word [(42, o)]) id true &&
      okAt true .c (word [(42, o)]) (fun t => { t with elreri := true, s := [(0, 2 ^ 32)] }) true) = true := by decide +kernel

/-- A tile at the last slot of a bundle with a control operation. -/
def lastSlot (c : Control) (f : Tile → Tile) : State :=
  with0 (f { runs 0 with issued := [.x, .l, .v, .m], control := c })

def endsBundle (s : State) : Bool :=
  (s.tile 0).quiet && decide ((s.tile 0).events = []) && !s.debug && decide ((s.tile 0).issued.length = 4) && decide ((s.tile 0).hold = .free)

theorem test_bundleEnd_hypotheses :
    [lastSlot (.jump 3) id, lastSlot .none id, lastSlot (.loop 1 2 5) id, lastSlot (.loop 1 2 0) id,
     lastSlot .none (fun t => { t with loops := [⟨2, 0, 0⟩], lc := [(2, 3)] }), lastSlot .none (fun t => { t with loops := [⟨2, 0, 0⟩], lc := [(2, 1)] }),
     lastSlot (.delay 0) id, lastSlot .bend id, lastSlot .halt id, lastSlot (.align 0) id, lastSlot (.align 1) id].all endsBundle = true ∧
    (lastSlot (.align 0) id).planBeats 0 = 1 ∧ (lastSlot (.align 1) id).ctxOfTile 0 = some 0 := by decide +kernel

/-- R126, R129: the loop goes round with its counter one less; a DLY of 0 holds issue for one cycle after the bundle's own; an ALIGN to the beat
after the one in progress waits. -/
theorem test_bundleEnd :
    (((lastSlot .none (fun t => { t with loops := [⟨2, 0, 0⟩], lc := [(2, 3)] })).slotIssued 0 .c 0).tile 0).lcReg 2 = 2 ∧
    (((lastSlot .none (fun t => { t with loops := [⟨2, 0, 0⟩], lc := [(2, 3)] })).slotIssued 0 .c 0).tile 0).pc = 1 ∧
    (((lastSlot (.loop 1 2 0) id).slotIssued 0 .c 0).tile 0).pc = 4 ∧
    (((lastSlot (.delay 0) id).slotIssued 0 .c 0).tile 0).hold = .delay 2 ∧
    (((lastSlot (.align 1) id).slotIssued 0 .c 0).tile 0).hold = .align 1 := by decide +kernel

/-- An untimed bundle that has stalled on its ACHK. -/
def achkWord : SlotWord := word [(42, 0x0B), (34, 2), (33, 1), (0, 7)]
def stalled : State := at0 true .c achkWord (fun t => { t with stalled := 2 ^ 26 })

theorem test_waits_hypotheses :
    ((with0 { runs 0 with hold := .delay 3, cyc := 3 }).tile 0).hold = .delay 3 ∧
    ((with0 { runs 0 with hold := .delay 3, cyc := 2 }).tile 0).hold = .delay 3 ∧
    (stalled.tile 0).lookup = .hit 0 (bundleOf true .c achkWord) ∧ stalled.mayIssue 0 = true ∧ (stalled.tile 0).issued = [] ∧
    (stalled.tile 0).bundleTimed (bundleOf true .c achkWord) = false ∧ (stalled.tile 0).bundleIllegal (bundleOf true .c achkWord) = false ∧
    opOf (slotOf (bundleOf true .c achkWord) .c) = 0x0B ∧ (stalled.tile 0).predOk achkWord = true ∧ (stalled.tile 0).achkVoid = false ∧
    (stalled.tile 0).achkPasses achkWord = false ∧ 2 ^ 26 ≤ (stalled.tile 0).stalled := by decide +kernel

/-- A plan of one engine whose end mark is in plan beat 0. -/
def engine0 : Engine := ⟨true, true, false, true, none, 0, 2, 1, 1, 64, 2, 0, 1⟩
def plan0 : Plan := ⟨false, false, false, 12, 32, 1, 1, 0, 1, [], [engine0], [], [], 0, 0, 0⟩
def stepmCtx : Ctx := { phase := .running, plan := some plan0 }
def stepmAt : State := { at0 false .c (word [(42, 0x05)]) id with ctxs := [(0, stepmCtx)] }

theorem test_marks_hypotheses :
    readyB stepmAt 0 .c (word [(42, 0x05)]) (bundleOf false .c (word [(42, 0x05)])) = true ∧ stepmAt.stepmWrong 0 0 = false ∧
    okAt false .c (word [(42, 0x09), (32, 5), (27, 1)]) (fun t => { t with s := [(1, 63)] }) true = true ∧
    okAt false .c (word [(42, 0x0A)]) id true = true ∧
    okAt false .c achkWord id true = true ∧ okAt false .c achkWord (fun t => { t with ac := [(2, 7)] }) true = true := by decide +kernel

/-- A load or store of the L slot at the last bytes of the larder and at OFF with wrap-around. -/
def lWord (o off n post : Nat) : SlotWord := word [(42, o), (33, 3), (28, 1), (12, off), (7, n), (0, post)]
def lTile (a : Nat) (t : Tile) : Tile := { t with s := [(1, BitVec.ofNat 64 a)] }

theorem test_larder_hypotheses :
    [0x01, 0x02].all (fun o => okAt false .l (lWord o 0 0 0) (lTile (larderSize - 8)) true && okAt false .l (lWord o 1 0 0) (lTile (2 ^ 64 - 8)) true &&
      okAt false .l (lWord o 1 0 1) (lTile (larderSize - 8)) true) = true ∧
    [0x03, 0x04].all (fun o => okAt false .l (lWord o 0 31 0) (lTile (larderSize - 256)) true &&
      okAt false .l (lWord o 0 31 1) (lTile 8) true) = true ∧ (larderSize - 256) % 8 = 0 := by decide +kernel

def eWord (o : Nat) : SlotWord := word [(42, o), (33, 3), (24, 510), (15, 1), (0, 1)]

theorem test_entries_hypotheses :
    [0x05, 0x06, 0x07].all (fun o => okAt false .l (eWord o) (fun t => { t with s := [(3, BitVec.ofNat 64 (larderSize - 1024))] }) true) = true ∧
    (larderSize - 1024) % 16 = 0 ∧ fld (eWord 5) 32 24 + fld (eWord 5) 23 15 = 511 := by decide +kernel

/-- Tile 0 of a device with every region enabled, in domain mode or not. -/
def xAt (dom : Bool) (sl : Slot) (w : SlotWord) (f : Tile → Tile) : State :=
  { at0 false sl w f with regs := [(0x10, BitVec.ofNat 64 (2 ^ 64 - 1))], dom := if dom then some ⟨1, 0, 0, false⟩ else none }

theorem test_crossing_hypotheses :
    [0x08, 0x09].all (fun o => okAt false .l (word [(42, o), (33, 3), (28, 1), (12, 2), (0, 3)]) (fun t => { t with s := [(1, 64), (3, BitVec.ofNat 64 (larderSize - 64))] }) true) = true ∧
    (let w := word [(42, 0x01), (33, 3), (28, 1), (23, 2), (9, 5)]
     let s := xAt false .x w (fun t => { t with s := [(1, 16), (2, 1), (3, 32)] })
     readyB s 0 .x w (bundleOf false .x w) && s.xsendLegal 0 w) = true ∧
    okAt false .x (word [(42, 0x03), (30, 1), (33, 3)]) (fun t => { t with s := [(3, BitVec.ofNat 64 (larderSize - 16))] }) true = true ∧
    (let w := word [(42, 0x02), (33, 3), (28, 1), (20, 1), (19, 1)]
     let s := xAt true .x w (fun t => { t with s := [(1, 0xFFFF), (3, BitVec.ofNat 64 (larderSize - 80))] })
     readyB s 0 .x w (bundleOf false .x w) && s.domainMode && (s.tile 0).predOk w) = true ∧
    okAt false .x (word [(42, 0x04), (32, 7), (27, 1)]) (fun t => { t with s := [(1, 0x800)] }) true = true ∧ bindLegal 0x800 = true := by decide +kernel

/-- A CLEAR configuration of the packed group with FP8 elements, N = 32 and an MMUL under it. -/
def mmulWord : SlotWord := word [(42, 0x01), (35, 0), (36, 1), (31, 1), (26, 1), (14, 2), (5, 480)]
def mcfg : W64 := BitVec.ofNat 64 (1 <<< 9 + 7 <<< 20)
def mTile (t : Tile) : Tile := { t with mc := [(1, mcfg)], s := [(2, 32)] }

theorem test_matrix_hypotheses :
    (MatCfg.ofWord mcfg).isSome = true ∧ okAt false .m mmulWord mTile true = true ∧ fld mmulWord 19 14 < 36 ∧
    ((at0 false .m mmulWord mTile).tile 0).mmulRuns mmulWord = true ∧ okAt false .m (word [(42, 0x02)]) id true = true := by decide +kernel

/-- A job of two vectors under that configuration, before its stream starts, at its first compare, or with a row to write. -/
def jobA (started : Bool) (outs : List RowOut) : Job := ⟨5, 0, 7, mcfg, 0, 0, 64, 2, 480, started, [], [(0, List.replicate 64 1)], 0, outs, []⟩
def arrayAt (j : Job) : State := with0 { runs 0 with jobs := [j], cyc := 15 }

theorem test_array_hypotheses :
    (MatCfg.ofWord mcfg).any (fun c => (jobA true []).vecs.find? (fun v => v.1 == 0) == some (0, List.replicate 64 1) &&
      decide (7 + 0 * c.vecCycles + c.cmpOff ≤ 15) && decide (7 + 0 * c.vecCycles + c.outOff ≤ 15) && !c.vdst && !c.delivers) = true ∧
    (MatCfg.ofWord (mcfg ||| BitVec.ofNat 64 (2 ^ 35 + 5 * 2 ^ 20))).isSome = true ∧
    ((arrayAt (jobA false [])).tile 0).jobs = [jobA false []] ∧ (jobA false []).s0 ≤ ((arrayAt (jobA false [])).tile 0).cyc ∧
    ((arrayAt (jobA true [⟨0, [], false⟩])).tile 0).jobs = [jobA true [⟨0, [], false⟩]] ∧
    (jobA true []).nextCmp + 1 < (jobA true []).n := by decide +kernel

/-- A tile whose bundle has slots left to issue; and the crossing port of a bundle with no CWR. -/
theorem test_bundleStarts : ((with0 (runs 0)).tile 0).issued.length < 4 ∧ (with0 (runs 0)).cwrCycles 0 = 0 ∧
    ((with0 (runs 0)).tile 0).portBusy = false ∧ ((with0 (runs 0)).tile 0).elreri = false := by decide +kernel

/-! ### Arrivals at tiles, the cellar, debug, frames and beats -/

/-- A powered device with its boot function presented and the PLL locked. -/
def dev : State := { State.reset with boot := { presented := true }, clk := { locked := true } }

/-- Context 0 running at the start of an extent of a megabyte, and its partition's range of a gigabyte. -/
def ctxA : Ctx := { phase := .running, params := { extentBytes := 2 ^ 20 } }
def devA (ts : Map Tile) : State :=
  { dev with
    tiles := ts, ctxs := [(0, ctxA)], regs := [(0x50008, BitVec.ofNat 64 (2 ^ 11))],
    clk := { locked := true, regions := [(0, { bound := some 0, done := false })], units := [(0, { inBeat := true, started := 1 })] } }

def idleTile : Tile := { Tile.reset with hold := .free, code := some (64, 0) }
def meshAt : State :=
  devA [(0, { idleTile with sends := [⟨7, .mesh 1 (larderSize - 16) 15, 16, List.replicate 16 5, false⟩] }), (1, idleTile)]
def inAt : State := devA [(0, { idleTile with streams := [⟨7, larderSize - 64, 2 ^ 20 - 64, 64, 15⟩] })]
def outAt : State := devA [(0, { idleTile with sends := [⟨7, .cellar (2 ^ 20 - 64) 15, 64, List.replicate 64 5, false⟩] })]
def fillAt : State := devA [(0, { idleTile with lines := [(0, { filling := true })] })]

/-- A plan crate of stream 3, SEQ 65535, for tile 63 of region 0, and a binding of a ring of 2^15 crates in entry 63. -/
def crate3 : Crate := mkCrate 0 0 63 0 0x01 3 65535 false (List.replicate 40 9)
def crateAt : State :=
  { devA [(455, { idleTile with bind := [(63, BitVec.ofNat 64 (3 + 2 ^ 11 + 15 * 2 ^ 12 + 0 * 2 ^ 16 + 16 * 2 ^ 20))] })] with
    regs := [(0x10, 1)], link := { inbox := [(0, crate3)] } }

theorem test_arrivals_hypotheses :
    (meshAt.tile 0).sends.find? (fun y => y.id == 7) = some ⟨7, .mesh 1 (larderSize - 16) 15, 16, List.replicate 16 5, false⟩ ∧
    (meshAt.tile 0).events = [] ∧ (meshAt.tile 1).events = [] ∧ (meshAt.tile 1).hold = .free ∧
    (inAt.tile 0).streams.find? (fun y => y.id == 7) = some ⟨7, larderSize - 64, 2 ^ 20 - 64, 64, 15⟩ ∧ (inAt.tile 0).hold = .free ∧
    inAt.checkExtent (inAt.ctxOfTile 0) (2 ^ 20 - 64) 64 = .ok (2 ^ 20 - 64) ∧ (inAt.tile 0).events = [] ∧
    (outAt.tile 0).streams.find? (fun y => y.id == 7) = none ∧ (outAt.tile 0).hold = .free ∧ (outAt.tile 0).events = [] ∧
    (outAt.tile 0).sends.find? (fun y => y.id == 7) = some ⟨7, .cellar (2 ^ 20 - 64) 15, 64, List.replicate 64 5, false⟩ ∧
    outAt.checkExtent (outAt.ctxOfTile 0) (2 ^ 20 - 64) 64 = .ok (2 ^ 20 - 64) ∧
    mfind (fillAt.tile 0).lines 0 = some { filling := true } ∧ (fillAt.tile 0).code = some (64, 0) ∧ (fillAt.tile 0).events = [] ∧
    fillAt.checkExtent (fillAt.ctxOfTile 0) 0 2048 = .ok 0 ∧
    meshAt.regionRuns 0 = true ∧ fillAt.regionRuns 0 = true ∧ inAt.regionRuns 0 = true ∧
    crateAt.link.inbox = [(0, crate3)] ∧ crateAt.crateMoves 0 crate3 = true ∧ crateAt.regionRuns crate3.region = true ∧ crateAt.enabled crate3.region = true ∧ crate3.poison = false ∧ crate3.stream = 3 ∧
    (crate3.region / 8 * 8 + crate3.tileIn / 8) * 64 + crate3.region % 8 * 8 + crate3.tileIn % 8 = 455 ∧
    (crateAt.tile 455).events = [] ∧ (crateAt.tile 455).hold = .free ∧
    (mget 0 (crateAt.tile 455).bind 63).getLsbD 11 = true ∧ getBits (mget 0 (crateAt.tile 455).bind 63) 10 0 = 3 ∧
    (List.range 63).all (fun j => !(mget 0 (crateAt.tile 455).bind j).getLsbD 11) = true := by decide +kernel

/-- A transfer to a tile of a gated region, whose landing holds 15 chunks or none; and a crate for it, or for a region that is not there. -/
def landed (n : Nat) : List LandEntry := List.replicate n ⟨8, ⟨0, [], false, .more⟩⟩
def gatedAt (n : Nat) (mask : Nat) : State :=
  let s := devA [(7, { idleTile with sends := [⟨7, .mesh 8 0 15, 256, List.replicate 256 5, false⟩] })]
  { s with
    regs := (0x10, BitVec.ofNat 64 mask) :: s.regs, link := { inbox := [(0, crate3), (0, mkCrate 0 1 0 0 0x01 3 0 false (List.replicate 40 9))] }
    clk := { s.clk with landings := [(32, landed n), (33, landed 16)], regions := s.clk.regions ++ [(1, { done := true })] } }

theorem test_landings_hypotheses :
    [0, 15].all (fun n => let s := gatedAt n 3
      s.passes (meshRoute 7 8) (regionOfTile 8) && !s.regionRuns (regionOfTile 8) && decide (meshLanding 7 8 = some 32) &&
      decide ((s.landing 32).length = n ∧ (s.tile 7).events = [])) = true ∧
    meshAt.passes (meshRoute 0 1) (regionOfTile 1) = true ∧ meshAt.regionRuns (regionOfTile 1) = true ∧
    (let s := gatedAt 0 3
     let c := mkCrate 0 1 0 0 0x01 3 0 false (List.replicate 40 9)
     decide (s.link.inbox = [(0, crate3), (0, c)]) && s.crateMoves 0 c && s.enabled 1 && !s.regionRuns 1 && decide (crateLanding 0 c = some 32)) = true ∧
    (let s := { gatedAt 0 2 with clk := {} }
     !s.enabled crate3.region && s.crateMoves 0 crate3) = true := by decide +kernel

/-- R171: what the landing has no room for stays on its way. -/
theorem test_landing :
    (match exec (.meshTransferArrival 7 7) (gatedAt 15 3) with
     | .next t => decide ((t.landing 32).length = 16) && decide ((t.tile 7).sends = [⟨7, .mesh 8 128 15, 128, List.replicate 128 5, false⟩])
     | _ => false) = true := by decide +kernel

/-- A tile that holds the last chunk of a transfer, and one whose issue is held with nothing in flight. -/
def chunkTile : Tile := { Tile.reset with recv := [⟨larderSize - 4, [1, 2, 3, 4], true, .count 15⟩] }

/-- A tile that holds a crate's chunk, whose stream two bindings match, or none. -/
def crateTile (b : Bool) : Tile :=
  { Tile.reset with
    recv := [⟨0, [1, 2], false, .crate 3 65535⟩]
    bind := if b then [(5, BitVec.ofNat 64 (3 + 2 ^ 11 + 15 * 2 ^ 12)), (9, BitVec.ofNat 64 (3 + 2 ^ 11))] else [(5, 3)] }

theorem test_crateChunks_hypotheses :
    (mget 0 (crateTile true).bind 5).getLsbD 11 = true ∧ getBits (mget 0 (crateTile true).bind 5) 10 0 = 3 ∧
    (List.range 5).all (fun j => !(mget 0 (crateTile true).bind j).getLsbD 11) = true ∧
    (List.range 64).all (fun j => !(mget 0 (crateTile false).bind j).getLsbD 11) = true ∧ (crateTile true).accesses = [] := by decide +kernel

theorem test_chunks_hypotheses :
    chunkTile.recv = [⟨larderSize - 4, [1, 2, 3, 4], true, .count 15⟩] ∧ chunkTile.accesses = [] ∧ chunkTile.accMoves = [] ∧ chunkTile.jobs = [] ∧
    chunkTile.accWrites = [] ∧ idleTile.recv = [] ∧ ({ idleTile with hold := .halted } : Tile).quiet = true ∧ Tile.reset.code = none ∧
    idleTile.code.isSome = true ∧ idleTile.hold = .free := by decide +kernel

/-- R69, R73: the chunk is written, with its flag, and counts. -/
theorem test_chunk :
    readByte chunkTile.passCycle.larder (larderSize - 1) = 4 ∧ chunkTile.passCycle.acReg 15 = 1 ∧ chunkTile.passCycle.poison = true := by decide +kernel

theorem test_no_marks : ∀ n, inAt.marked n = false := fun _ => rfl

/-- Site 11 hot, or with a page on its way to a remap page. -/
def siteAt (x : Site) (l : List PageCopy) : State := { dev with regs := [(0x18, BitVec.ofNat 64 (2 ^ 31))], mem := { sites := [(11, x)], copies := l } }

theorem test_cellarEvents_hypotheses :
    (siteAt {} [⟨11, 5⟩]).mem.copies.contains ⟨11, 5⟩ = true ∧ (siteAt {} []).sites.contains 11 = true ∧ ((siteAt {} []).site 11).hot = false ∧
    ((siteAt { hot := true } []).site 11).hot = true ∧ (siteAt {} []).clk.locked = true ∧ 1462 * 1792 + 111 < 2621440 ∧ (63 : Nat) < 64 := by decide +kernel
theorem test_cellarEvents_cold : ∀ i, (dev.site i).hot = false := fun _ => rfl

/-- Debug enabled, and one slip unit. -/
def dbgAt (x : SlipUnit) : State :=
  { dev with regs := [(0x40, 2), (7 * 2 ^ 24 + 0x70300, BitVec.ofNat 64 (larderSize - 8) <<< 16)], clk := { locked := true, units := [(7, x), (0, x)] } }
def peekAt : State := { dbgAt { peek := true, halted := true } with regs := [(0x70300, BitVec.ofNat 64 (larderSize - 8) <<< 16)] }

theorem test_debug_hypotheses :
    ((dbgAt { haltPend := some ⟨15, 7, 4095, 2 ^ 24 - 1, 0, 0⟩ }).unit 7).haltPend = some ⟨15, 7, 4095, 2 ^ 24 - 1, 0, 0⟩ ∧
    ((dbgAt { haltPend := some ⟨15, 7, 4095, 2 ^ 24 - 1, 0, 0⟩ }).unit 7).inBeat = false ∧
    (let s := dbgAt { haltPend := some ⟨2, 3, 4095, 9, 0, 0⟩ }
     let t := { s with clk := { s.clk with regions := [(63, { bound := some (7 * 256) })] } }
     t.ctxOfTile 4095 = some (7 * 256) ∧ (t.unit 7).haltPend = some ⟨2, 3, 4095, 9, 0, 0⟩) ∧ (peekAt.tile 0).events = [] ∧
    (dbgAt {}).debug = true ∧ (dbgAt {}).functions.contains 0 = true ∧ ((dbgAt {}).unit 0).halted = false ∧ ((dbgAt {}).unit 0).haltPend = none ∧
    ((dbgAt { halted := true }).unit 7).halted = true ∧ (BitVec.ofNat 64 (2 ^ 63)).getLsbD 63 = true ∧
    (peekAt.unit 0).peek = true ∧ (peekAt.unit 0).halted = true ∧ 64 * peekAt.field 0 0x70300 11 6 + peekAt.field 0 0x70300 5 0 = 0 ∧ peekAt.unitOf (regionOfTile 0) = 0 ∧
    (peekAt.tile 0).peekWord (peekAt.field 0 0x70300 15 12) (peekAt.field 0 0x70300 47 16) = some 0 := by decide +kernel

theorem test_frames_hypotheses :
    dev.clk.locked = true ∧ dev.clk.holdover = false ∧ dev.clk.markAcq = false ∧ dev.link.ports = [] ∧
    ({ dev with clk := { dev.clk with displaced := some (2, 1, 0) } } : State).clk.displaced = some (2, 1, 0) ∧
    ({ dev with clk := { dev.clk with displaced := some (2621438, 2, 0) } } : State).clk.displaced = some (2621438, 2, 0) ∧
    ({ dev with clk := { dev.clk with markAcq := true } } : State).clk.markAcq = true ∧
    ({ dev with clk := { dev.clk with holdover := true } } : State).clk.holdover = true := by decide +kernel

/-- R158, R188: the second mark in its place acquires it. -/
theorem test_frameStart :
    (match exec (.frameStart true) dev with
     | .next t => (match exec (.frameStart true) t with | .next u => u.clk.markAcq && decide (u.clk.frameStart = 5242880 ∧ u.clk.frame = 2) | _ => false) &&
        !t.clk.markAcq
     | _ => false) = true := by decide +kernel

/-- A unit with nothing running, or with context 0, whose next slot is the one named; region 63 may have work left. -/
def slotAt (run : Bool) (x : SlipUnit) (late : Bool) : State :=
  { dev with ctxs := if run then [(0, { phase := .running, plan := some { plan0 with stepBeats := 4, slipTol := true } })] else [],
             tiles := if late then [(4095, idleTile)] else [],
             clk := { locked := true, units := [(0, x)], regions := [(63, { bound := some 0, done := !late })] } }

def slotReady (s : State) : Bool :=
  s.clk.locked && s.units.contains 0 && (s.ctxsOf 0).all (fun c => (s.ctx c).waits.isEmpty)
def mayStart (s : State) : Bool :=
  let x := s.unit 0
  slotReady s && !(s.active 0).isEmpty && !x.halted && decide (x.haltPend = none) && decide (x.breaks = []) && !x.stopAsked && !x.stopped &&
  s.mem.staging.isEmpty && (s.running 0).all (fun c => (s.ctx c).destroying.isNone && (s.ctx c).step.endDue.isNone)

theorem test_slots_hypotheses :
    [slotAt false {} false, slotAt false { nextSlot := 159 } false, slotAt false { stopAsked := true } false].all slotReady = true ∧
    [slotAt true {} false, slotAt true { nextSlot := 159, debt := 1 } false, slotAt true { inBeat := true, started := 1 } true,
      slotAt true { inBeat := true, started := 1 } false].all mayStart = true ∧
    (slotAt false {} false).running 0 = [] ∧ (slotAt false {} false).slotsPerFrame 0 = 160 ∧ 0 + 1 < 160 ∧
    (slotAt true { nextSlot := 159, debt := 1 } false).domainMode = false ∧ (slotAt true { nextSlot := 159, debt := 1 } false).slotsPerFrame 0 = 160 ∧
    ((slotAt true { nextSlot := 159, debt := 1 } false).unit 0).resume = none ∧
    (slotAt true { inBeat := true, started := 1 } true).active 0 = [0] ∧
    (slotAt true { inBeat := true, started := 1 } true).planBeat 0 % 4 ≠ 4 - (plan0.engines.map (·.boundary)).headD 1 - 1 ∧ plan0.elreri = false ∧
    (List.range 64).all (fun r => (slotAt true { inBeat := true, started := 1 } false).regionComplete r) = true ∧
    (slotAt true { inBeat := true, started := 1 } true).unitOf 63 = 0 ∧
    (slotAt true { inBeat := true, started := 1 } true).regionComplete 63 = false ∧
    (slotAt true { inBeat := true, started := 1 } true).intolerant 0 = false ∧
    ((slotAt false { stopAsked := true } false).unit 0).stopAsked = true ∧ (slotAt false { stopAsked := true } false).dom = none ∧
    (slotAt false { stopAsked := true } false).faults.coreFault = false := by decide +kernel

/-- Region 0 in a plan beat beside a neighbour that has stretched far. -/
def beatAt : State :=
  { devA [(0, { idleTile with hold := .beat, cyc := 4064 })] with
    regs := [(0x10, 0xFFFFFFFFFFFFFFFF#64)],
    clk := { locked := true, units := [(0, { inBeat := true, started := 1 })],
             regions := [(0, { bound := some 0, done := false }), (1, { bound := some 0, done := false, stretch := 2000 })] } }

theorem test_regions_hypotheses :
    beatAt.regionRuns 0 = true ∧ (tilesOfRegion 0).all beatAt.tileEnded = true ∧
    beatAt.enabled 0 = true ∧ (beatAt.region 0).fenced = false ∧ (tilesOfRegion 0).all beatAt.tileFinished = true ∧ beatAt.tiles.all (fun p => !beatAt.trafficIn p.1 0) = true ∧
    (beatAt.region 0).stretch ≤ beatAt.div * (beatAt.unit (beatAt.unitOf 0)).slack ∧ beatAt.div * (beatAt.unit (beatAt.unitOf 1)).slack < (beatAt.region 1).stretch ∧
    (beatAt.unit (beatAt.unitOf 1)).slipped = false ∧ 4 < beatAt.sympathy 0 ∧
    dev.functions.contains 0 = true ∧
    [(10, 16), (14, 256)].all (fun p => let v : W64 := BitVec.ofNat 64 (p.1 + p.2 * 2 ^ 8)
      decide (getBits v 3 0 = p.1) && decide (getBits v 16 8 = p.2)) = true ∧
    (dev.unit 0).startHeld = false ∧ dev.running 0 = [] ∧ dev.dom = none ∧
    getBits (BitVec.ofNat 64 (9 + 16 * 2 ^ 8)) 3 0 < 10 ∧ 256 < getBits (BitVec.ofNat 64 (10 + 257 * 2 ^ 8)) 16 8 ∧
    ((slotAt false { pend := some (14, 256) } false).unit 0).pend = some (14, 256) ∧ (slotAt false { pend := some (14, 256) } false).clk.tick = 0 := by decide +kernel

/-- An OP_CHANGE in its frame, which its queue executes. -/
def opDesc : DescRef := ⟨0, 63, 0, [0x70], 4, 0, 0⟩
def opAt : State :=
  { dev with host := { queues := [(63, { executing := [opDesc] })] }, clk := { locked := true, frame := 9, opPend := some ⟨9, 3, 0, 63, 4⟩ } }

theorem test_opChange_hypotheses :
    opAt.clk.opPend = some ⟨9, 3, 0, 63, 4⟩ ∧ opAt.frameNow = 9 ∧ opAt.clk.tick = opAt.clk.frameStart ∧
    (opAt.queue 0 63).executing.find? (fun e => e.order == 4) = some opDesc ∧ opAt.faults.coreFault = false := by decide +kernel

/-! ### Memory, queues, descriptors and contexts -/

/-- A descriptor without a DONE_FLAG whose operand fields are named by offset and value. -/
def descOf (op : Nat) (fs : List (Nat × Nat)) : List Byte :=
  leBytes 8 op ++ leBytes 8 0xFFFF ++ leBytes 48 ((fs.map (fun f => f.2 * 2 ^ (8 * f.1))).foldl (· + ·) 0)

/-- Queue 0 of function 0 on, with a descriptor fetched. -/
def qAt (bs : List Byte) (f : State → State) : State :=
  let s := f dev
  { s with regs := mput s.regs (qctl 0) (BitVec.ofNat 64 (1 + 6 * 8)), host := { s.host with queues := [(0, { waiting := [⟨63, bs, 0⟩] })] } }

/-- What the descriptor of a queue is and the state with it started, if its header is in order. -/
def started (s : State) (fn q : Nat) : Option (DescRef × State) :=
  match s.nextDesc fn q (fun _ => true) with
  | some f => if (s.begin fn q f).1.headerFault.isNone then some (s.begin fn q f) else none
  | none => none

theorem starts_of_started {s : State} {fn q : Nat} {d : DescRef} {u : State} (h : started s fn q = some (d, u)) : s.starts fn q d u := by
  unfold started at h
  split at h
  · next f hf =>
    split at h
    · next hh => exact ⟨f, hf, by simpa using h, by have e := congrArg Prod.fst (Option.some.inj h); simpa [e] using hh⟩
    · exact absurd h (by simp)
  · exact absurd h (by simp)

/-- The descriptor starts, and it and the state with it started pass a test. -/
def startsWith (s : State) (p : DescRef → State → Bool) : Bool := match started s 0 0 with | some (d, u) => decide (d.fn = 0) && p d u | none => false

/-- A running context with a dirty shelf; one whose extent is being set to zeros. -/
def shelfAt : State := { dev with ctxs := [(0, { phase := .running, shelves := [(2 ^ 24 - 1, false)] })] }
def createDesc : DescRef := ⟨0, 0, 0, [0x10], 4, 0, 0⟩
def zeroAt0 : State :=
  { dev with ctxs := [(0, { phase := .creating, creating := some createDesc, params := { extentBytes := 2 ^ 21 } })],
             host := { queues := [(0, { executing := [createDesc] })] } }

theorem test_zeroed_hypotheses :
    mfind (shelfAt.ctx 0).shelves (2 ^ 24 - 1) = some false ∧ (zeroAt0.ctx 0).phase = .creating ∧ (zeroAt0.ctx 0).creating = some createDesc ∧
    zeroAt0.faults.coreFault = false ∧ (zeroAt0.queue 0 0).executing.any (fun e => e.order == 4) = true := by decide +kernel

/-- A staging entry of context 0 in its lead beat, with a decoder of a gigabyte of vault behind it. -/
def entryA : StageFetch :=
  { ctx := 0, entry := 3, vault := 0, cellar := 0, pages := 2, due := 1, lead := 1, subst := false, step := 0, started := false, written := 0,
    passed := false, intact := true,
    refetched := false, abandoned := false, counted := false }
def stageAt (b : Bool) : State :=
  { devA [] with mem := { staging := [{ entryA with started := b }] },
                 regs := [(0x50008, BitVec.ofNat 64 (2 ^ 11)), (0x50C00, BitVec.ofNat 64 (2 ^ 14 + 2 ^ 33))] }

theorem test_staging_hypotheses :
    (stageAt false).mem.staging.find? (fun x => x.ctx == 0 && x.entry == 3 && !x.started) = some entryA ∧ entryA.passed = false ∧ entryA.poisoned = false ∧
    (stageAt false).quiesced = false ∧ ((stageAt false).active 0).contains 0 = true ∧
    (stageAt false).dueBeat entryA < (stageAt false).planBeats 0 + 1 ∧ (stageAt true).stageOf 0 3 = some { entryA with started := true } ∧
    ((stageAt true).vaultPlace 0 0).isSome = true ∧ (stageAt true).checkExtent (some 0) 0 0 = .ok 0 := by decide +kernel

/-- Whatever the key, some page of no bytes verifies. -/
theorem test_staging_page (key : List Byte) (p : VaultPlace) (v : Nat) : ∃ rec, openVaultPage key p v [] rec = some [] := by
  refine ⟨gcmTag (aesKeys key) (vaultIv (p.rel / 4096) p.dec 0) (leBytes 8 v) [], ?_⟩
  have h : (gcmTag (aesKeys key) (vaultIv (p.rel / 4096) p.dec 0) (leBytes 8 v) []).length ≤ 16 := by
    simp [gcmTag, xorBytes, beBytes, Nat.min_le_left]
  simp [openVaultPage, gcmDecrypt, fieldAt, List.take_of_length_le h, List.drop_of_length_le h, leNat, xorBytes]

/-- Queue 63 of the last function of eight, on or off. -/
def bellAt (on : Bool) : State :=
  { dev with regs := [(0x28, 8), (7 * 2 ^ 24 + qctl 63, BitVec.ofNat 64 ((if on then 1 else 0) + 16 * 8))] }

theorem test_doorbells_hypotheses :
    (bellAt true).functions.contains 7 = true ∧ (bellAt true).queueOn 7 63 = true ∧ (bellAt true).ringSize 7 63 = 65536 ∧
    (bellAt false).functions.contains 7 = true ∧ (bellAt false).queueOn 7 63 = false ∧ getBits 0xFFFF#64 15 0 = 65535 ∧
    (qAt [] id).queueOn 0 0 = true ∧ (qAt [] id).ringSize 0 0 = 64 ∧ getBits 0x40#64 15 0 = 64 ∧ getBits 0x3F#64 15 0 = 63 ∧
    [(6, true), (16, true), (5, false), (17, false)].all (fun p => let v : W64 := BitVec.ofNat 64 (1 + 8 * p.1)
      v.getLsbD 0 && (decide (6 ≤ getBits v 7 3 ∧ getBits v 7 3 ≤ 16) == p.2)) = true ∧
    (0#64).getLsbD 0 = false ∧ ((bellAt true).queue 7 63).waitNow = none := by decide +kernel

/-- R327: a doorbell of the last index of a ring. -/
theorem test_sqTail :
    (match exec (.sqTail 7 63 0xFFFF#64 true) (bellAt true) with
     | .next t => decide (t.field 7 (qpos 63) 31 16 = 65535) && decide ((t.queue 7 63).bell = some 0)
     | _ => false) = true := by decide +kernel

/-- A ring with one descriptor to fetch at its last index, on a port that is up. -/
def ringAt : State := { dev with regs := [(0x10008, 1), (qctl 0, BitVec.ofNat 64 (1 + 6 * 8)), (qpos 0, BitVec.ofNat 64 (2 ^ 48 + 63))] }

theorem test_fetch_hypotheses :
    ringAt.functions.contains 0 = true ∧ ringAt.fetchable 0 0 = true ∧ ringAt.firstQueue 0 0 ringAt.fetchable = true ∧ ringAt.debug = false ∧
    (List.replicate 64 (0 : Byte)).length = 64 ∧ (ringAt.queue 0 0).waitNow = none := by decide +kernel

/-- Descriptors of every opcode and of one the manual does not list, with a reserved header bit. -/
def headerCands : List (List Byte) :=
  (0xEE :: knownOpcodes).flatMap (fun op => (List.range 5).map (fun sub => descOf (op + 4 * 256) [(1, sub), (2, sub)]))

theorem test_headers_hypotheses :
    headerCands.all (fun bs => decide ((qAt bs id).nextDesc 0 0 (fun _ => true) = some ⟨63, bs, 0⟩)) = true ∧
    descRows.all (fun r => headerCands.any (fun bs => r.serves bs && ((qAt bs id).begin 0 0 ⟨63, bs, 0⟩).1.headerFault.isSome) &&
      headerCands.any (fun bs => !r.serves bs)) = true := by decide +kernel

/-- A descriptor whose work is done, with the last DONE_FLAG and INT, at the end of its completion ring. -/
def doneDesc : DescRef := ⟨0, 63, 5, leBytes 8 (0x30 + 2 * 256) ++ leBytes 8 4095 ++ List.replicate 48 0, 9, 0, 0⟩
def doneAt : State :=
  { dev with regs := [(0x10008, 1), (qctl 63, BitVec.ofNat 64 (1 + 6 * 8)), (qpos 63, BitVec.ofNat 64 (63 * 2 ^ 32 + 2 ^ 48))],
             host := { queues := [(63, { executing := [doneDesc] })], done := [(doneDesc, 0, 7)] } }

theorem test_completion_hypotheses :
    doneAt.host.done[0]? = some (doneDesc, 0, 7) ∧ doneAt.faults.coreFault = false ∧ doneAt.reachable 0 = true ∧ doneDesc.doneFlag = 4095 ∧
    doneDesc.int = true ∧ doneDesc.headerFault = none ∧ (doneAt.queue 0 63).executing.any (fun x => x.order == 9) = true ∧ doneDesc.queue < 64 ∧
    ({ doneAt with regs := [] } : State).reachable 0 = false := by decide +kernel

/-- R332: the entry carries the phase, which changes as the ring wraps. -/
theorem test_completion :
    (match exec (.descriptorComplete 0) doneAt with
     | .next t => decide (t.field 0 (qpos 63) 47 32 = 0) && decide (t.field 0 (qpos 63) 48 48 = 0) && decide (t.syncFlag 0 4095 = 1) &&
        decide (t.out = [.completion 0 63 63 [7, 0, 0, 0, 0, 0, 0, 0, 5, 0, 0, 1, 0, 0, 0, 0], .interrupt 0 63])
     | _ => false) = true := by decide +kernel

theorem test_signals_hypotheses :
    startsWith (qAt (descOf 0x01 []) id) (fun d _ => decide (d.opcode = 1) && d.reservedOk []) = true ∧
    [0, 1].all (fun k => startsWith (qAt (descOf 0x03 [(0, 4095), (2, k), (8, 2 ^ 64 - 1)]) id) (fun d _ => decide (d.opcode = 3) &&
      decide (d.opd 2 1 = k) && d.reservedOk [(0, 3), (8, 8)] && decide (d.opd 0 2 = 4095) && decide (d.opd 8 8 = 2 ^ 64 - 1))) = true ∧
    [0, 1].all (fun v => startsWith (qAt (descOf 0x02 [(0, 4095), (8, v), (16, 1)]) id) (fun d u => decide (d.opcode = 2) &&
      d.reservedOk [(0, 2), (8, 8), (16, 4)] && decide (d.opd 0 2 = 4095) && decide (d.opd 16 4 = 1) &&
      (decide (d.opd 8 8 ≤ u.syncFlag 0 (d.opd 0 2)) == decide (v = 0)))) = true := by decide +kernel

/-- A WAIT for flag 5 that executes; its queue's next descriptor would set the flag. -/
def waitDesc : DescRef := ⟨0, 0, 0, descOf 0x02 [(0, 5), (8, 1), (16, 1)], 4, 0, 0⟩
def waitAt (hit : Option Nat) : State :=
  { dev with host := { queues := [(0, { executing := [waitDesc], waiting := [⟨1, descOf 0x03 [(0, 5), (2, 0), (8, 1)], 0⟩], hit := hit })] } }

theorem test_waits_complete_hypotheses :
    ((waitAt (some 1)).queue 0 0).waitNow = some waitDesc ∧ ((waitAt (some 1)).queue 0 0).hit = some 1 ∧ ((waitAt none).queue 0 0).waitNow = some waitDesc ∧
    ((waitAt none).queue 0 0).hit = none ∧ (waitAt none).waitCycles 0 [] = [0] ∧ (waitAt none).faults.coreFault = false := by decide +kernel

/-- Function 7 of eight, whose home is port 0; the port is down, or the function has moved and its writes wait. -/
def portAt (moved : Bool) : State :=
  { dev with regs := [(0x28, 8), (0x10008, 1), (7 * 2 ^ 24 + 0x10008, BitVec.ofNat 64 1), (7 * 2 ^ 24 + 0x10018, 2),
               (7 * 2 ^ 24 + hcfg 15, BitVec.ofNat 64 (1 + 2 ^ 10))],
             host := { ports := [(0, { downAt := some 5 })], moved := if moved then [7] else [], unflushed := [(7, .interrupt 7 0, none), (6, .interrupt 6 0, some 5)] } }

theorem test_ports_hypotheses :
    ({ portAt false with power := { good := true } } : State).power.good = true ∧
    (portAt false).field 0 0x10008 0 0 = 1 ∧ (portAt false).functions.contains 7 = true ∧ (portAt false).portOf 7 = (portAt false).homeOf 7 ∧
    (mget {} (portAt false).host.ports ((portAt false).homeOf 7) : CxlPort).downAt = some 5 ∧ (portAt true).host.moved.contains 7 = true ∧
    (portAt true).field 7 (0x10008 + 8 * (portAt true).portOf 7) 0 0 = 1 ∧ (portAt false).field 7 0x10018 1 0 = 2 ∧
    (List.range 16).any (fun h => (portAt false).hatchOn 7 h && (portAt false).slotPlain 7 h) = true := by decide +kernel

/-- The smallest parameter block: an extent of 2 MiB without areas. -/
def paramBlock : List Byte :=
  leBytes 0x24 (2 ^ 21) ++ leBytes 4 1 ++ leBytes 4 64 ++ leBytes 0x14 0 ++ leBytes 4 0 ++ leBytes 4 (2 ^ 21) ++ List.replicate 184 0
def createAt : State := qAt (descOf 0x10 []) (fun s => { s with regs := [(0x50008, BitVec.ofNat 64 (2 ^ 11)), (0x50028, BitVec.ofNat 64 (1023 * 2 ^ 8 + 2 ^ 18))] })
def destroyAt (p : CtxPhase) : State := qAt (descOf 0x11 []) (fun s => { s with ctxs := [(0, { phase := p })] })
def tearAt : State := { dev with ctxs := [(0, { phase := .destroying, destroying := some createDesc, steps := 9 })] }

theorem test_contexts_hypotheses :
    startsWith createAt (fun d u => decide (d.opcode = 0x10) && d.reservedOk [(0, 1), (8, 8)] && decide (d.opd 8 8 % 64 = 0) &&
      decide ((u.ctx d.ctxKey).phase = .free) && decide (u.freeKey 0 = some 1023) && decide (u.placeExtent 0 (2 ^ 21) = some 0)) = true ∧
    paramBlock.length = 256 ∧ paramsOk paramBlock = true ∧ (readParams paramBlock).extentBytes = 2 ^ 21 ∧ (readParams paramBlock).audited = false ∧
    [CtxPhase.empty, .ready, .running].all (fun p => startsWith (destroyAt p) (fun d u => decide (d.opcode = 0x11) && d.reservedOk [(0, 1)] &&
      u.ctxUsable d.ctxKey && decide (u.dom = none) && decide ((u.ctx d.ctxKey).step.desc = none))) = true ∧
    (tearAt.ctx 0).phase = .destroying ∧ (tearAt.ctx 0).destroying = some createDesc ∧ (tearAt.ctx 0).reqs = [] ∧ tearAt.faults.coreFault = false ∧
    tearAt.host.streams = [] ∧ tearAt.host.hatches = [] ∧ (tearAt.ctx 0).inProgress = [] := by decide +kernel

/-! ### Loads, swaps and adapters -/

/-- A key of exponent 1, and a manifest of one shard of 64 bytes under it. -/
def keyA : List Byte := List.replicate 512 0xFF ++ [0, 0, 0, 1]
def bodyA (digest : List Byte) : List Byte :=
  [0x4C, 0x4D, 0x57, 0x4D] ++ leBytes 4 1 ++ leBytes 8 1248 ++ leBytes 8 1 ++ leBytes 8 128 ++ leBytes 8 208 ++ leBytes 8 736 ++ List.replicate 80 0 ++
    leBytes 16 64 ++ digest ++ keyA ++ List.replicate 12 0
/-- Its digest, and the key's (by hand from FIPS 180-4). -/
def shaBody : List Byte := beBytes 64 0xf9da7420c7a3fb5378b85628e4ee5bafcc0d901ac6baa7baf7bd01448abb27ce0860e68bb26705ae06d70a9fb0da95ba6fe499e28d0909b595b21950d1570d76
def shaKey : List Byte := beBytes 64 0xe813b11ac2cca0d934fb3551c1d9858e1e08bffa8b3566951f38b10b7343c3b6a784fc41de6691f2ab24a9e31cd4437ca9a2fc0a25ba2e3bb9d6f5c4a047f4a2
def manA : List Byte := bodyA (List.replicate 64 2) ++ pkcs1 512 shaBody

/-- A load table of its one shard at 64 KiB, from host memory; the manifest at 0 and the staging area at 1 MiB. -/
def tableA : List Byte :=
  leBytes 8 1 ++ leBytes 24 0 ++ leBytes 8 (2 ^ 20) ++ leBytes 8 64 ++ leBytes 16 0 ++
    (leBytes 4 0 ++ [0, 1, 0, 0] ++ leBytes 8 65536 ++ leBytes 48 0)

/-- The digest of no shard, and of the shard that a swap brings. -/
def dgA : List Byte := List.replicate 64 1
def dgB : List Byte := List.replicate 64 2

def entryOf (dg : List Byte) : LoadEntry := ⟨0, false, 1, 0, false, 65536, 0, List.replicate 16 0, 0, 64, dg⟩
def setA : WeightSet := ⟨1, 0, [], 1, [entryOf dgA], 0, 0, [64]⟩

/-- A context whose extent is 2 MiB and whose key is the one above. -/
def loadCtx (f : Ctx → Ctx) : Ctx := f { phase := .empty, params := { extentBytes := 2 ^ 21, pubHash := shaKey } }
def loadAt (bs : List Byte) (f : Ctx → Ctx) : State :=
  qAt bs (fun s => { s with ctxs := [(0, loadCtx f)], regs := [(0x50008, BitVec.ofNat 64 (2 ^ 11))] })

theorem manA_whole : hostRead manA (manBytes manA) = manA := by decide +kernel
theorem manA_signed : manSigned (hostRead manA (manBytes manA)) shaKey = true := by
  rw [manA_whole]
  decide +kernel

/-- What a manifest and a table are found to say passes a test. -/
def infoOk (r : Except (Nat × Nat) LoadInfo) (p : LoadInfo → Bool) : Bool := match r with | .ok i => p i | .error _ => false

/-- The entry of the load, and the one shard that a swap of `setA` changes. -/
def fits (i : LoadInfo) : Bool :=
  decide (i.entries = [entryOf (List.replicate 64 2)]) && !layoutBad setA i (changedShards setA i) && decide (changedShards setA i = i.entries) &&
  decide ((placeStage i.stageBase i.entries).2 ≤ i.stageBase + i.stageBytes) &&
  ((loadAt [] id).ctx 0).params.inFree i.stageBase i.stageBytes &&
  !anyMeet ((i.stageBase, i.stageBytes) :: i.copies.map (fun p => (p.1, p.2.length))) &&
  !i.entries.any (fun e => !e.vaultDest && spansMeet i.stageBase i.stageBytes e.dest e.bytes)

theorem test_prepareLoad (swap : Bool) : infoOk ((loadAt [] id).prepareLoad 0 manA tableA swap) fits = true := by
  have h : ((loadAt [] id).ctx 0).params.pubHash = shaKey := rfl
  simp only [State.prepareLoad, h, manA_signed]
  cases swap <;> decide +kernel

theorem vaultSpan_congr {s t : State} (hr : s.regs = t.regs) (hd : s.dom = t.dom) (c a n : Nat) : s.vaultSpan c a n = t.vaultSpan c a n := by
  cases s
  cases t
  cases hr
  cases hd
  rfl

theorem prepareLoad_congr {s t : State} {c : Nat} (hp : (s.ctx c).params = (t.ctx c).params)
    (hr : s.regs = t.regs) (hd : s.dom = t.dom) (m tb : List Byte) (b : Bool) :
    s.prepareLoad c m tb b = t.prepareLoad c m tb b := by
  simp only [State.prepareLoad, hp, vaultSpan_congr hr hd]

/-- What LoadsBegin asks of a weight load and a plan load beside the manifest. -/
def loadAt13 (p : CtxPhase) : State := loadAt (descOf 0x13 [(24, 1)]) (fun x => { x with phase := p })
def loadAt12 (p : CtxPhase) : State := loadAt (descOf 0x12 [(1, 1), (4, 4095), (16, 64), (24, 2 ^ 21 - 4096), (36, 1)]) (fun x => { x with phase := p })

theorem test_loads_hypotheses :
    [CtxPhase.empty, .ready].all (fun p => startsWith (loadAt13 p) (fun d u => decide (d.opcode = 0x13) && d.reservedOk [(0, 1), (2, 30)] &&
      decide (u.dom = none) && decide (u.phaseOf 0 = p) && decide (u.tableFaults d tableA = []) && decide ((u.ctx 0).loads = [])) &&
      startsWith (loadAt12 p) (fun d u => decide (d.opcode = 0x12) && d.reservedOk [(0, 3), (4, 2), (8, 32)] && decide (u.dom = none) &&
        decide (d.opd 1 1 = 1 ∧ d.opd 2 1 = 0 ∧ d.opd 4 2 = 4095 ∧ d.opd 24 8 % 4096 = 0 ∧ d.opd 36 4 = 1 ∧ d.opd 16 8 = 64 ∧ d.opd 32 4 = 0) &&
        (u.ctx 0).params.inFree (d.opd 24 8) (d.opd 16 8) && decide (u.phaseOf 0 = p) && decide ((u.ctx 0).loads = []))) = true := by decide +kernel

theorem test_weightsLoad_manifest (p : CtxPhase) (hp : p = .empty ∨ p = .ready) :
    infoOk (((((loadAt13 p).begin 0 0 ⟨63, descOf 0x13 [(24, 1)], 0⟩).2.modCtx 0
      (fun x => { x with weights := none, staged := none })).settlePhase 0).prepareLoad 0 manA tableA false) fits = true := by
  refine (congrArg (infoOk · fits) (prepareLoad_congr ?_ ?_ ?_ manA tableA false)).trans (test_prepareLoad false)
  · rcases hp with h | h <;> subst h <;> decide +kernel
  · simp only [State.settlePhase, State.modCtx, State.setCtx, State.begin, State.setQueue, loadAt13, loadAt, qAt]
  · simp only [State.settlePhase, State.modCtx, State.setCtx, State.begin, State.setQueue, loadAt13, loadAt, qAt]

/-- A running context with weights, and a set staged. -/
def stagedA : Staged := ⟨setA, [], 0⟩
def swapDesc (phase : Nat) (l : List (Nat × Nat)) : List Byte := descOf 0x14 ([(1, phase), (24, 1)] ++ l)
def swapAt (phase : Nat) (l : List (Nat × Nat)) (g : Option Staged) : State :=
  loadAt (swapDesc phase l) (fun x => { x with phase := .running, weights := some setA, staged := g, steps := 4 })

/-- The checks of a swap that reads a manifest, beside what the manifest says. -/
def swapOk (phase : Nat) (l : List (Nat × Nat)) : Bool :=
  startsWith (swapAt phase l none) (fun d u => decide (d.opcode = 0x14 ∧ d.opd 1 1 = phase) && d.reservedOk (if phase = 1 then [(0, 32)] else [(0, 44)]) &&
    (decide (phase = 1) || !u.barrierBad d) && decide (u.swapFaults d = []) && decide (u.tableFaults d tableA = []) &&
    u.runsSteps 0 && decide ((u.ctx 0).loads = [] ∧ (u.ctx 0).swap = none ∧ (u.ctx 0).weights = some setA))

theorem test_swaps_hypotheses :
    [(32, 0), (32, 5)].all (fun b => startsWith (swapAt 2 [b, (40, 2 ^ 20)] (some stagedA)) (fun d u => decide (d.opcode = 0x14 ∧ d.opd 1 1 = 2) &&
      d.reservedOk [(0, 8), (24, 20)] && decide (d.opd 2 2 < 4096 ∧ d.opd 24 4 = 1 ∧ d.opd 28 4 = 0) && !u.weightsBusy 0 && !u.barrierBad d &&
      decide ((u.ctx 0).staged = some stagedA ∧ u.swapFaults d = []) && u.runsSteps 0)) = true ∧
    swapOk 1 [] = true ∧ [3, 4].all (fun p => swapOk p [(32, 0)] && swapOk p [(32, 5), (40, 2 ^ 20)]) = true := by decide +kernel

theorem test_swap_manifest (phase : Nat) (l : List (Nat × Nat)) :
    infoOk ((((swapAt phase l none).begin 0 0 ⟨63, swapDesc phase l, 0⟩).2).prepareLoad 0 manA tableA true) fits = true := by
  refine (congrArg (infoOk · fits) (prepareLoad_congr ?_ ?_ ?_ manA tableA true)).trans (test_prepareLoad true) <;>
  simp only [State.begin, State.setQueue, swapAt, loadAt, qAt, State.ctx, mget, mfind, loadCtx, if_true, Option.getD_some, id]

/-- A load of two shards of no bytes under way. -/
def loadDesc : DescRef := ⟨0, 0, 0, [], 4, 0, 0⟩
def shardOf (i : Nat) (dg : List Byte) : ShardState := ⟨⟨i, false, 1, 0, false, 2 ^ 21 - 64, 0, [], 0, 3, dg⟩, 1, true, false, false⟩
/-- SHA-512 of "abc" (FIPS 180-4, its worked example). -/
def shaAbc : List Byte := beBytes 64 0xDDAF35A193617ABACC417349AE20413112E6FA4E89A97EA20A9EEEE64B55D39A2192992A274FC1A836BA3C23A3FEEBBD454D4423643CE80E2A9AC94FA54CA49F
def loadA : Load := ⟨loadDesc, 0, .weights, 0, 0, 0, 0, 1, 5, setA, [], [shardOf 0 shaAbc, shardOf 1 dgA], false, [], 0⟩
def fetchAt : State := loadAt [] (fun x => { x with loads := [loadA] })

theorem test_shards_hypotheses :
    (fetchAt.ctx 0).loads[0]? = some loadA ∧ fetchAt.findLoad 0 loadA.desc.order = some loadA ∧ fetchAt.link.early = [] ∧
    (fetchAt.ctx 0).waits = [] ∧ loadA.firstDeadline = false ∧ loadA.set.listCount = 0 ∧ loadA.kind = .weights ∧
    (shardOf 0 shaAbc).fetching = true ∧ (shardOf 0 shaAbc).kind = 1 ∧ sha512 [0x61, 0x62, 0x63] = shaAbc ∧ fetchAt.checkExtent (some 0) (2 ^ 21 - 64) 3 = .ok (2 ^ 21 - 64) := by
  decide +kernel

/-- A commit before its barrier in a context that does not run, and one whose copies are complete in one that runs. -/
def swapA : Swap := ⟨loadDesc, some stagedA, 0, 0, false, none, false, 0, false⟩
def commitAt (p : CtxPhase) (w : Swap) : State := { dev with ctxs := [(0, { phase := p, swap := some w })] }
/-- A staged set of one shard of 64 bytes at the second page, for the last bytes of an extent of 2 MiB. -/
def stagedB : Staged := ⟨setA, [{ entryOf dgA with dest := 2 ^ 21 - 64 }], 4096⟩
def copyAt0 : State := loadAt [] (fun x => { x with swap := some { swapA with started := true, next := some stagedB } })

theorem test_commits_hypotheses :
    ((copyAt0).ctx 0).swap = some { swapA with started := true, next := some stagedB } ∧
    copyAt0.checkExtent (some 0) (roundUp 4096 4096) 64 = .ok 4096 ∧ copyAt0.checkExtent (some 0) (2 ^ 21 - 64) 64 = .ok (2 ^ 21 - 64) ∧
    (∀ n ∈ transfersOf 4096 64, copyAt0.marked n = false) ∧ (commitAt .empty swapA).swapWaits 0 swapA = false ∧
    ((commitAt .empty swapA).ctx 0).swap = some swapA ∧ ((commitAt .empty swapA).ctx 0).phase ≠ .running ∧
    ((commitAt .running { swapA with started := true, voids := some 0 }).ctx 0).swap = some { swapA with started := true, voids := some 0 } ∧
    ((commitAt .running { swapA with started := true, voids := some 0 }).ctx 0).phase = .running := by decide +kernel

/-- A running context of one adapter slot that adapter 4095 holds, and the wait for it. -/
def adCtx (held : Bool) : Ctx :=
  { phase := .running, params := { adapterSlots := 1 }, adapters := [(0, { phase := if held then .current else .loading, id := 4095, gen := 1 })],
    waits := [] }
def adAt (op : Nat) (l : List (Nat × Nat)) (held : Bool) : State := qAt (descOf op l) (fun s => { s with ctxs := [(0, adCtx held)] })
def adapterWait : AdapterWait := ⟨loadDesc, 0, 4094, false, 1, [], []⟩
def adWaitAt : State := { dev with ctxs := [(0, { adCtx true with waits := [adapterWait] })] }

theorem test_adapters_hypotheses :
    startsWith (adAt 0x15 [(2, 4094), (24, 1)] true) (fun d u => decide (d.opcode = 0x15) && decide (u.adapterFaults d [(0, 1), (2, 26)] [] = []) &&
      decide ((u.ctx 0).waits = [] ∧ (u.ctx 0).freeAdapter = none) && !(u.ctx 0).adapterHeld (d.opd 2 2)) = true ∧
    startsWith (adAt 0x16 [(2, 4095), (24, 1)] true) (fun d u => decide (d.opcode = 0x16 ∧ d.opd 1 1 = 0) &&
      decide (u.adapterFaults d [(0, 28)] [] = []) && decide ((u.ctx 0).waits = [] ∧ (u.ctx 0).freeAdapter = none) &&
      (u.ctx 0).adapterLoaded (d.opd 2 2)) = true ∧
    startsWith (adAt 0x16 [(1, 1), (2, 4095)] true) (fun d u => decide (d.opcode = 0x16 ∧ d.opd 1 1 = 1 ∧ d.opd 2 2 < 4096) && d.reservedOk [(0, 28)] &&
      u.ctxUsable 0 && !(u.ctx 0).adapterBusy (d.opd 2 2) && (u.ctx 0).adapterLoaded (d.opd 2 2) && u.runsSteps 0) = true ∧
    (adWaitAt.ctx 0).waits[0]? = some adapterWait := by decide +kernel

/-- Two adapter slots, of which the second is free, under the same key. -/
def adFree : CtxParams := { adapterSlots := 2, adapterSlotBytes := 2 ^ 18, adapterPubHash := shaKey }

theorem test_adapters_free :
    startsWith (qAt (descOf 0x15 [(2, 4094), (24, 1)]) (fun s => { s with ctxs := [(0, { adCtx true with params := adFree })] }))
      (fun _ u => decide ((u.ctx 0).freeAdapter = some 1) && decide ((u.ctx 0).waits = [] ∧ (u.ctx 0).loads = [])) = true := by decide +kernel

theorem test_adapterPrepare : (match adapterPrepare adFree 1 manA tableA with | .ok (_, es, _) => decide (es.length = 1) | .error _ => false) = true := by
  have h : adFree.adapterPubHash = shaKey := rfl
  simp only [adapterPrepare, h, manA_signed]
  decide +kernel

/-! ### Requests, copies, hatches, encode streams, domains and checkpoints -/

/-- A request block: temperature 0, REP_PEN 1.0, the record at 1 MiB, the input and the output at the end of the extent. -/
def blockA : List Byte :=
  leBytes 12 0 ++ leBytes 4 0x3F800000 ++ leBytes 48 0 ++ leBytes 8 (2 ^ 20) ++ leBytes 8 (2 ^ 21 - 128) ++ leBytes 8 (2 ^ 21 - 64) ++ leBytes 8 64 ++
    List.replicate 160 0

/-- A running context whose one engine speculates and samples; its inputs are tokens, or records of 64 bytes. -/
def engineB (inRec : Nat) : Engine := ⟨true, true, true, true, none, 0, 2, 8, 1, 64, 2, inRec, 1⟩
def reqCtx (inRec : Nat) (reqs : Map Req) : Ctx :=
  { phase := .running, plan := some { plan0 with engines := [engineB inRec] }, steps := 6, reqs := reqs
    params := { extentBytes := 2 ^ 21, shelfCount := 1, shelfPos := 64 } }
def reqA : Req := (reqCtx 0 []).newReq ⟨0, 1, 0, descOf 0x20 [(2, 65535), (24, 4), (28, 64), (36, 1)], 3, 0, 0⟩ blockA [] []
def reqAt (bs : List Byte) (inRec : Nat) (rs : Map Req) : State :=
  qAt bs (fun s => { s with ctxs := [(0, reqCtx inRec rs)], regs := [(0x50008, BitVec.ofNat 64 (2 ^ 11))] })

def inPartition (s : State) (p : DescRef → State → Bool) : Bool :=
  startsWith s (fun d u => !u.domainMode && decide ((u.ctx 0).phase = .running ∧ u.phaseOf 0 = .running) && p d u)

def admitDesc : List Byte := descOf 0x20 [(2, 65535), (4, 0xFFFF), (7, 0xFF), (24, 4), (28, 64), (36, 1)]
def feedDesc (kind n : Nat) : List Byte := descOf 0x22 [(1, kind), (2, 65535), (16, n), (24, 2 ^ 21 - 256), (32, 1)]
/-- A tree of two nodes, the second a child of the first. -/
def treeA : List Byte := leBytes 8 2 ++ leBytes 4 1 ++ leBytes 4 (2 ^ 20)

def feedOk (kind n inRec : Nat) (p : State → Req → Bool) : Bool :=
  inPartition (reqAt (feedDesc kind n) inRec [(65535, reqA)]) (fun d u => decide (d.opcode = 0x22 ∧ d.opd 1 1 = kind ∧ d.opd 16 4 = n) &&
    decide (u.feedFaults d = []) && (match u.req 0 (d.opd 2 2) with | some r => p u r | none => false))

theorem test_requests_hypotheses :
    inPartition (reqAt admitDesc 0 []) (fun d u => decide (d.opcode = 0x20 ∧ u.admitFaults d blockA [] = [])) = true ∧ blockA.length = 256 ∧
    feedOk 1 252 0 (fun u r => decide (252 % 4 = 0 ∧ u.positionsUsed 0 r + 252 / 4 = r.maxPos)) = true ∧
    feedOk 2 64 64 (fun u r => decide ((((u.ctx 0).engine r.first).map (·.inRec)).getD 0 = 64) && decide (u.positionsUsed 0 r + 1 ≤ r.maxPos)) = true ∧
    feedOk 3 16 0 (fun u r => decide ((((u.ctx 0).chain r.first 9).find? (·.decode)) = some (engineB 0)) &&
      treeOk (hostRead treeA 16) (engineB 0).slotTokens) = true ∧
    inPartition (reqAt (descOf 0x21 [(2, 65535)]) 0 [(65535, reqA)]) (fun d u => decide (d.opcode = 0x21 ∧ d.opd 1 1 = 0 ∧ u.cancelFaults d = [] ∧
      mfind (u.ctx 0).reqs (d.opd 2 2) = some reqA)) = true ∧
    inPartition (reqAt (descOf 0x21 [(2, 65535)]) 0 [(65535, { reqA with phase := .retired, effect := some 5 })]) (fun d u => decide (d.opcode = 0x21 ∧ d.opd 1 1 = 0 ∧
      u.cancelFaults d = [] ∧ mfind (u.ctx 0).reqs (d.opd 2 2) = some { reqA with phase := .retired, effect := some 5 })) = true ∧
    inPartition (reqAt (descOf 0x21 [(1, 1)]) 0 [(65535, reqA)]) (fun d u => decide (d.opcode = 0x21 ∧ d.opd 1 1 = 1 ∧ u.cancelFaults d = [] ∧
      (u.ctx 0).reqs = [(65535, reqA)])) = true ∧
    reqA.id = 65535 ∧ reqA.phase ≠ .retired ∧ reqA.effect = none := by decide +kernel

/-- A copy of 64 bytes between host, extent and hatch 15 of function 0, on a port that is up. -/
def copyAt (src dst h : Nat) (a b : Nat) : State :=
  qAt (descOf 0x30 [(1, src), (2, dst), (3, h), (8, a), (16, b), (24, 64)]) (fun s => { s with
    ctxs := [(0, { phase := .empty, params := { extentBytes := 2 ^ 21 } })],
    regs := [(0x10008, 1), (hcfg 15, BitVec.ofNat 64 (1 + 12 * 16 + 2 ^ 10)), (0x50008, BitVec.ofNat 64 (2 ^ 11))] })

theorem test_copies_hypotheses :
    [(1, 2, 0, 0, 2 ^ 21 - 64), (2, 1, 0, 2 ^ 21 - 64, 0), (2, 3, 15, 2 ^ 21 - 64, 0)].all (fun (p : Nat × Nat × Nat × Nat × Nat) =>
      startsWith (copyAt p.1 p.2.1 p.2.2.1 p.2.2.2.1 p.2.2.2.2) (fun d u => decide (d.opcode = 0x30 ∧ u.copyFaults d = [] ∧ d.opd 1 1 = p.1 ∧
        d.opd 2 1 = p.2.1 ∧ d.opd 24 8 = 64) && u.reachable 0 &&
        (decide (p.2.1 ≠ 2) || decide (u.checkExtent (some 0) (d.opd 16 8) 64 = .ok (2 ^ 21 - 64))))) = true := by decide +kernel

/-- A copy of 64 bytes of IN slot 5, which the device holds or not; and the copies out of the extent whose first transfer is marked or not. -/
def copyIn (own : List Nat) : State :=
  let s := copyAt 3 2 15 5 (2 ^ 21 - 64)
  { s with
    regs := mput s.regs (hcfg 15) (BitVec.ofNat 64 (3 + 12 * 16 + 2 ^ 10)) ++ [(hcfg 15 + 0x18, 6)]
    host := { s.host with hatches := [(15, { owned := own })] } }
def copyOut (dst : Nat) (m : Bool) : State :=
  let s := copyAt 2 dst 15 0 (2 ^ 21 - 64)
  { s with mem := { s.mem with marks := [(0, m)] } }

/-- What a plain slot holds opens to itself, and a read of 64 bytes of it has 64. -/
theorem test_copySlot_hypotheses (s : State) (raw : List Byte) (h : s.slotPlain 0 15 = true) :
    s.openSlot 0 15 0 5 raw = some (raw, 0) ∧ ∀ n, 64 ≤ n → ((hostRead [] n).take 64).length = 64 := by
  refine ⟨by simp [State.openSlot, h], fun n hn => ?_⟩
  simp only [hostRead, List.length_take, List.length_append, List.length_replicate, List.length_nil]
  omega

theorem test_copySources_hypotheses :
    startsWith (copyIn [5]) (fun d u => decide (d.opcode = 0x30 ∧ d.opd 1 1 = 3 ∧ u.copyFaults d = [] ∧ u.checkExtent (some 0) (d.opd 16 8) 64 = .ok (2 ^ 21 - 64)) &&
      (u.hatch 0 15).owned.contains (d.opd 8 8) && u.slotPlain 0 15 && decide (u.slotBytes 0 15 = 4096 ∧ d.opd 24 8 = 64) && u.reachable 0) = true ∧
    startsWith (copyIn []) (fun d u => decide (d.opcode = 0x30 ∧ d.opd 1 1 = 3 ∧ u.copyFaults d = []) && !(u.hatch 0 15).owned.contains (d.opd 8 8)) = true ∧
    [1, 2, 3].all (fun dst => [true, false].all (fun m => startsWith (copyOut dst m) (fun d u =>
      decide (d.opcode = 0x30 ∧ d.opd 1 1 = 2 ∧ d.opd 2 1 = dst ∧ u.copyFaults d = []) &&
      decide ((u.hubRead 0 (d.opd 8 8) 64 []).2.1 = if m then [(0, 64)] else []) && (u.hubRead 0 (d.opd 8 8) 64 []).2.2.reachable 0 &&
      (decide (dst ≠ 2) || decide ((u.hubRead 0 (d.opd 8 8) 64 []).2.2.checkExtent (some 0) (d.opd 16 8) 64 = .ok (2 ^ 21 - 64)))))) = true ∧
    startsWith { copyOut 1 false with regs := mput (copyOut 1 false).regs 0x10008 0 } (fun d u => decide (d.opcode = 0x30 ∧ u.copyFaults d = []) &&
      !(u.hubRead 0 (d.opd 8 8) 64 []).2.2.reachable 0) = true := by decide +kernel

/-- Hatch 15 of function 7 with two slots of 4 KiB, off or on and plain. -/
def hatchA (on : Bool) (x : Hatch) : State :=
  { dev with regs := [(0x28, 8), (7 * 2 ^ 24 + 0x10008, BitVec.ofNat 64 1), (7 * 2 ^ 24 + hcfg 15, BitVec.ofNat 64 ((if on then 1 else 0) + 12 * 16 + 2 ^ 10)),
               (7 * 2 ^ 24 + (hcfg 15 + 0x18), BitVec.ofNat 64 65), (7 * 2 ^ 24 + (hcfg 15 + 0x20), BitVec.ofNat 64 64)],
             host := { hatches := [(127, x)] } }
def copyJob : HatchJob := ⟨.copy loadDesc, 0, [7], [], []⟩

theorem test_hatches_hypotheses :
    (hatchA false {}).functions.contains 7 = true ∧ (hatchA false {}).hatchOn 7 15 = false ∧ (hatchA false {}).slotCount 7 15 = 65 ∧
    [12, 26].all (fun k => let v : W64 := BitVec.ofNat 64 (1 + 16 * k)
      v.getLsbD 0 && decide (getBits v 8 4 = k) && decide (65 * 2 ^ k ≤ 2 ^ 36)) = true ∧
    (hatchA true {}).hatchOn 7 15 = true ∧ ((hatchA true {}).hatch 7 15).owned = [] ∧ 64 * 1 + 0 < (hatchA true {}).slotCount 7 15 ∧
    (hatchA true { owned := [64], jobs := [copyJob] }).slotPlain 7 15 = true ∧ (hatchA true { owned := [64], jobs := [copyJob] }).hatchOn 7 15 = true ∧
    ((hatchA true { owned := [64], jobs := [copyJob] }).hatch 7 15).jobs = [copyJob] ∧ 1 ≤ (hatchA true {}).slotBytes 7 15 ∧
    ((hatchA true { owned := [64], jobs := [copyJob] }).hatch 7 15).owned.contains ((hatchA true {}).nextSlotOf 7 15) = true ∧
    (hatchA true { owned := [64], jobs := [copyJob] }).nextSlotOf 7 15 = 64 ∧ (hatchA true { owned := [64], jobs := [copyJob] }).reachable 7 = true := by
  decide +kernel

/-- More than a slot holds. -/
def longData : List Byte := List.replicate 4097 7

theorem test_hatchTurn_hypotheses :
    let s := hatchA true { owned := [64], jobs := [copyJob] }
    let b := hatchA true { owned := [64], jobs := [{ copyJob with data := longData }] }
    [s, b].all (fun u => ((u.hatch 7 15).turn u.heldJob).isSome && u.slotDue 7 15 && u.firstHatch 7 15 && u.reachable 7 && decide (u.slotCount 7 15 ≤ 2 ^ 24)) = true ∧
    (copyJob.written ++ [64]).length = copyJob.slots (s.payloadBytes 7 15) ∧
    b.payloadBytes 7 15 = 4096 := by decide +kernel

theorem test_hatchLong : 1 < ({ copyJob with data := longData } : HatchJob).slots 4096 := by
  have h : longData.length = 4097 := List.length_replicate
  simp only [HatchJob.slots, HatchJob.chunk, HatchJob.framed, copyJob, h]
  decide

/-- R351: of a line that shows a held slot as the host's, the slot goes and is counted. -/
theorem test_hatchLost :
    (match exec (.hatchFlagRefresh 7 15 1 [0]) (hatchA true { owned := [64] }) with
     | .next t => decide ((t.hatch 7 15).owned = [] ∧ t.field 7 0x20008 31 0 = 1 ∧ t.field 7 0x20000 0 0 = 1)
     | _ => false) = true := by decide +kernel

/-- R349: the last slot is written and handed back, and NEXT goes round. -/
theorem test_hatchSlot :
    (match exec (.outputRecordPlace 7 15) (hatchA true { owned := [64], jobs := [copyJob] }) with
     | .next t => decide (t.nextSlotOf 7 15 = 0) && decide (t.out = [.hatchSlot 7 15 64 [7], .hatchFlag 7 15 64 2])
     | _ => false) = true := by decide +kernel

/-- An ENCODE of function 0 beside stream 31, whose engine is engine 3. -/
def frameA (st : Option Nat) : FrameJob := ⟨loadDesc, 0, none, st, false, 0, 1, 256, 24576, 0, 0⟩
def streamA (fs : List FrameJob) : Stream :=
  { ctx := 0, engine := 3, codec := 0, depth := 8, width := 64, height := 64, rateNum := 1, rateDen := 1, keyInterval := 0, hatch := 15
    frames := fs, next := 0, needKey := false, busy := false, closing := none }
def encodeAt (sub : Nat) (l : List (Nat × Nat)) (x : Option Stream) : State :=
  let s := qAt (descOf 0x31 ([(1, sub), (2, 31)] ++ l)) (fun s => { s with
    ctxs := [(0, { phase := .empty })], regs := [(0x18, BitVec.ofNat 64 (2 ^ 35)), (hcfg 15, BitVec.ofNat 64 (1 + 12 * 16 + 2 ^ 10))] })
  { s with host := { s.host with streams := match x with | some x => [(31, x)] | none => [] } }

theorem test_encode_hypotheses :
    [(4096, 2176, 1), (64, 64, 1)].all (fun (p : Nat × Nat × Nat) =>
      startsWith (encodeAt 1 [(5, 10), (8, p.1), (10, p.2.1), (12, p.2.2), (14, 1), (26, 15), (27, 2)] none) (fun d u =>
        decide (d.opcode = 0x31 ∧ d.opd 1 1 = 1 ∧ d.opd 2 2 = 31 ∧ d.opd 4 1 ≤ 1 ∧ d.opd 5 1 = 10 ∧ d.opd 6 1 ≤ 2 ∧ d.opd 7 1 ≤ 2 ∧ d.opd 27 1 ≤ 2 ∧
          64 ≤ d.opd 8 2 ∧ d.opd 8 2 ≤ 4096 ∧ d.opd 8 2 % 8 = 0) &&
        decide (64 ≤ d.opd 10 2 ∧ d.opd 10 2 ≤ 2304 ∧ d.opd 10 2 % 8 = 0 ∧ d.opd 8 2 * d.opd 10 2 ≤ 8912896 ∧ d.opd 12 2 ≠ 0 ∧ d.opd 14 2 ≠ 0 ∧
          d.opd 8 2 * d.opd 10 2 * d.opd 12 2 ≤ 995328000 * d.opd 14 2) &&
        decide (d.opd 6 1 = 0 ∧ d.opd 17 3 = 0 ∧ d.opd 20 4 = 0) && d.reservedOk [(0, 28)] && u.ctxUsable 0 && decide (u.stream 0 31 = none) && decide (u.hatchFault 0 (d.opd 26 1) 0 0 = []) &&
        decide ((u.encoders 0).find? (fun e => u.engineRoom e (d.opd 8 2 * d.opd 10 2 * d.opd 12 2) (d.opd 14 2)) = some 3))) = true ∧
    [0, 1].all (fun codec => startsWith (encodeAt 1 [(4, codec), (5, 8), (6, 2), (8, 64), (10, 64), (12, 1), (14, 1), (16, 60000), (20, 60000), (26, 15)] none) (fun d _ =>
        decide (d.opd 6 1 ≠ 0 ∧ d.opd 16 4 ≤ levelRate (d.opd 4 1) ∧ d.opd 20 4 ≤ levelRate (d.opd 4 1)))) = true ∧
    startsWith (encodeAt 2 [(16, 1), (20, 256), (24, 24576)] (some (streamA []))) (fun d u => decide (d.opcode = 0x31 ∧ d.opd 1 1 = 2 ∧ d.opd 2 2 = 31 ∧
      u.encoders 0 ≠ [] ∧ u.stream 0 31 = some (streamA [])) && d.reservedOk [(0, 7), (8, 24)] && decide (d.opd 6 1 = 0 ∧ d.opd 16 4 = 1 ∧
      d.opd 20 4 % 256 = 0 ∧ 3 * d.opd 20 4 * 64 = 2 * d.opd 24 8) && u.ctxUsable 0 && u.slotPlain 0 15) = true ∧
    startsWith (encodeAt 3 [] (some (streamA []))) (fun d u => decide (d.opcode = 0x31 ∧ d.opd 1 1 = 3 ∧ d.opd 2 2 = 31 ∧ u.encoders 0 ≠ [] ∧
      u.stream 0 31 = some (streamA [])) && d.reservedOk [(0, 4)] && u.slotPlain 0 15) = true ∧
    (encodeAt 0 [] (some (streamA [frameA (some 0), frameA none]))).stream 0 31 = some (streamA [frameA (some 0), frameA none]) ∧
    ((encodeAt 0 [] (some (streamA [frameA none]))).hatch 0 15).jobs = [] ∧ ((encodeAt 0 [] (some (streamA [frameA none]))).hatch 0 15).owned = [] ∧
    (encodeAt 0 [] (some (streamA [frameA none]))).stream 0 31 = some (streamA [frameA none]) ∧ (frameA none).after = none := by decide +kernel

/-- A key frame of AV1, by hand from the published syntax: a temporal delimiter, a sequence header of one byte, and a frame of two; and one
of HEVC with VPS, SPS, PPS and an IDR picture. -/
theorem test_encodeBits :
    (streamA []).bitsOk true [0x12, 0, 0x0A, 1, 9, 0x32, 2, 7, 7] = true ∧ (streamA []).bitsOk true [0x12, 0, 0x32, 1, 7] = false ∧
    (streamA []).bitsOk false [0x12, 0, 0x32, 1, 7] = true ∧ (streamA []).bitsOk false [0x32, 1, 7] = false ∧
    ({ streamA [] with codec := 1 }).bitsOk true [0, 0, 1, 0x40, 1, 0, 0, 1, 0x42, 1, 0, 0, 1, 0x44, 1, 0, 0, 1, 0x26, 1, 5] = true ∧
    ({ streamA [] with codec := 1 }).bitsOk true [0, 0, 1, 0x26, 1, 5] = false := by decide +kernel

/-- A frame is ready to be encoded, and its source reads in order; a partition has no encoder. -/
theorem test_encodeFrame_hypotheses :
    (streamA [frameA none]).frames = [frameA none] ∧ (streamA []).busy = false ∧
    ((encodeAt 0 [] (some (streamA [frameA none]))).hubRead 0 0 64 []).2.1 = [(0, 64)] ∧
    (frameA (some 0x05)).status = some 0x05 ∧
    [1, 2, 3].all (fun sub => startsWith { encodeAt sub [] none with regs := mput (encodeAt sub [] none).regs 0x18 0 } (fun d u =>
      decide (d.opcode = 0x31 ∧ d.opd 1 1 = sub ∧ u.encoders 0 = []))) = true := by decide +kernel

/-- A ready context with a plan and weights; the mark acquired; in a domain or not. -/
def domCtx (p : CtxPhase) : Ctx := { phase := p, params := { mapEntries := 64 }, plan := some plan0, weights := some setA, steps := 4, lastCommit := 4 }
def domAt (bs : List Byte) (p : CtxPhase) (m : Option Domain) : State :=
  qAt bs (fun s => { s with ctxs := [(0, domCtx p)], dom := m, clk := { s.clk with markAcq := true } })
def startDesc : List Byte := descOf 0x40 [(4, 1), (8, 2 ^ 32 - 1), (16, 2), (24, 2 ^ 64 - 1), (32, 1)]
def resumeDesc (n : Nat) : List Byte := descOf 0x42 [(8, 2 ^ 32 - 1), (16, 2), (40, n)]

theorem test_domains_hypotheses :
    startsWith (domAt startDesc .ready none) (fun d u => decide (d.opcode = 0x40) && d.reservedOk [(0, 1), (4, 3), (8, 4), (16, 20)] && !u.domainBad d &&
      decide (u.startFaults 0 true [] = [] ∧ (u.ctx 0).plan = some plan0) && !u.markBad && !u.latencyBad plan0 && !u.abiBad) = true ∧
    [0, 4, 5].all (fun n => startsWith (domAt (descOf 0x41 [(40, n)]) .running (some ⟨1, 0, 0, false⟩)) (fun d u => decide (d.opcode = 0x41) &&
      d.reservedOk [(0, 1), (40, 8)] && decide (u.dom = some ⟨1, 0, 0, false⟩))) = true ∧
    [4, 5].all (fun n => startsWith (domAt (resumeDesc n) .running (some ⟨1, 0, 0, true⟩)) (fun d u => decide (d.opcode = 0x42) &&
      d.reservedOk [(0, 1), (8, 4), (16, 16), (40, 8)] && !u.resumeBad d && decide ((u.ctx 0).weights ≠ none ∧ (u.ctx 0).plan = some plan0) &&
      !u.usesFenced 0 && !u.markBad && !u.latencyBad plan0 && !u.abiBad)) = true ∧
    startsWith (domAt (descOf 0x70 [(0, 2), (8, 3)]) .ready none) (fun d u => decide (d.opcode = 0x70) && d.reservedOk [(0, 9)] &&
      decide (d.opd 8 1 = 3 ∧ u.clk.opPend = none ∧ d.frame + 2 = d.opd 0 8 ∧ u.clk.opOwner = 0)) = true ∧
    startsWith (domAt (descOf 0x70 [(0, 2), (8, 3)]) .ready (some ⟨1, 0, 0, false⟩)) (fun _ u => u.domainMode) = true := by decide +kernel

/-- The domain descriptors refused: in a partitioned device or with the link parameters wrong, with no domain, and not in recovery. -/
theorem test_domainsBad_hypotheses :
    startsWith (domAt startDesc .ready (some ⟨1, 0, 0, false⟩)) (fun d u => decide (d.opcode = 0x40) && d.reservedOk [(0, 1), (4, 3), (8, 4), (16, 20)] &&
      u.domainBad d) = true ∧
    (let s := domAt startDesc .ready none
     let l := { s.link with ports := [(21, ({ nbAbi := 1 } : LinkPort))] }
     startsWith { s with regs := mput s.regs (pstat 21) 7, link := l } (fun d u => !u.domainBad d &&
      decide (u.startFaults 0 true [] = [] ∧ (u.ctx 0).plan = some plan0) && !u.markBad && (u.latencyBad plan0 || u.abiBad))) = true ∧
    startsWith (domAt (descOf 0x41 []) .ready (some ⟨1, 1, 0, false⟩)) (fun d u => decide (d.opcode = 0x41) && decide (u.dom = some ⟨1, 1, 0, false⟩ ∧ 1 ≠ d.ctxKey)) = true ∧
    startsWith (domAt (descOf 0x41 []) .ready none) (fun d u => decide (d.opcode = 0x41) && d.reservedOk [(0, 1), (40, 8)] && decide (u.dom = none)) = true ∧
    startsWith (domAt (resumeDesc 4) .running (some ⟨1, 0, 0, false⟩)) (fun d u => decide (d.opcode = 0x42) && u.resumeBad d) = true := by decide +kernel

def stopDesc : DescRef := ⟨0, 0, 0, descOf 0x41 [], 4, 0, 0⟩
def stopAt : State :=
  { dev with ctxs := [(0, domCtx .ready)], dom := some ⟨1, 0, 0, false⟩, host := { queues := [(0, { executing := [stopDesc] })] } }
theorem test_domainStop_hypotheses :
    stopAt.dom = some ⟨1, 0, 0, false⟩ ∧ stopAt.domainStops = [stopDesc] ∧ (stopAt.ctx 0).phase ≠ .running ∧ (stopAt.ctx 0).reqs = [] := by
  decide +kernel

theorem test_domainStopRecovery_hypotheses :
    let s := { stopAt with ctxs := [(0, { domCtx .running with reqs := [(65535, reqA)] })], dom := some ⟨1, 0, 0, true⟩ }
    s.domainStops ≠ [] ∧ (s.dom.map (·.recovery)) = some true ∧ mfind (s.ctx 0).reqs 65535 = some reqA ∧ reqA.id = 65535 := by decide +kernel

/-- A context with a hatch key in key slot 0. -/
def ckptAt (bs : List Byte) (p : CtxPhase) (k : Option Ckpt) : State :=
  qAt bs (fun s => { s with ctxs := [(0, { domCtx p with ckpt := k })], mem := { keys := [(0, { owner := some 0, hatchKey := some [] })] } })
def ckptA : Ckpt :=
  { desc := ⟨0, 0, 0, descOf 0x50 [], 4, 0, 0⟩, step := none, voidSteps := 0, areas := [], voids := some 0, snap := 4, released := false
    resume := 0, captured := false, image := [], record := [] }
def ckptS : Ckpt := { ckptA with desc := { ckptA.desc with bytes := descOf 0x50 [(32, 1)] }, captured := true }
def restoreAt : State := { dev with ctxs := [(0, { domCtx .ready with restores := [loadDesc] })] }

theorem test_checkpoints_hypotheses :
    startsWith (ckptAt (descOf 0x50 [(1, 1), (4, 2 ^ 20), (37, 1)]) .running none) (fun d u => decide (d.opcode = 0x50) && d.reservedOk [(0, 36), (37, 11)] &&
      decide (d.opd 1 1 = 1 ∧ d.opd 2 2 = 0 ∧ d.opd 8 8 % 4096 = 0 ∧ d.opd 24 8 % 4096 = 0 ∧ d.opd 32 4 = 0 ∧ d.opd 4 4 = 2 ^ 20 ∧ d.opd 40 8 = 0) &&
      !u.domainMode && decide ((u.ctx 0).phase = .running ∧ u.phaseOf 0 = .running ∧ (u.ctx 0).ckpt = none ∧ u.hatchKey 0 ≠ none) && !u.swapBusy 0) = true ∧
    ((ckptAt [] .running (some ckptA)).ctx 0).ckpt = some ckptA ∧ ((ckptAt [] .running (some ckptA)).ctx 0).phase = .running ∧
    ckptA.voids = some 0 ∧ ckptA.captured = false ∧
    ((ckptAt [] .running (some ckptS)).ctx 0).ckpt = some ckptS ∧ ckptS.captured = true ∧ ckptS.released = false ∧ ckptS.desc.opd 32 4 ≠ 0 ∧
    ((ckptAt [] .running (some { ckptA with captured := true, record := [0] })).ctx 0).ckpt = some { ckptA with captured := true, record := [0] } ∧
    ckptA.desc.opd 32 4 = 0 ∧ ckptA.record = [] ∧ ckptA.released = false ∧
    startsWith (ckptAt (descOf 0x51 [(1, 1), (24, 1)]) .ready none) (fun d u => decide (d.opcode = 0x51 ∧ d.opd 1 1 = 1) && d.reservedOk [(0, 2), (8, 20)] &&
      decide (u.hatchKey 0 ≠ none ∧ u.phaseOf 0 = .ready ∧ (u.ctx 0).reqs = [])) = true ∧
    (restoreAt.ctx 0).restores[0]? = some loadDesc := by decide +kernel

/-- A snapshot of a context that does not run fits its room or not; a stage copy ends at the end of the extent; a write is of a context that
runs, or not. -/
def ckptT (p : CtxPhase) (room : Nat) (f : Ckpt → Ckpt) : State := ckptAt [] p (some (f { ckptA with voids := none, desc := { ckptA.desc with bytes := descOf 0x50 [(37, room)] } }))

theorem test_checkpointCases_hypotheses :
    (ckptT .ready 1 id).ckptPages 0 [] ≤ 255 ∧ ckptBytes ((ckptT .ready 1 id).ckptPages 0 []) ≤ 2 ^ 20 ∧ (descOf 0x50 [(37, 1)]).length = 64 ∧
    (ckptT .ready 1 id).ckptPages 0 [] ≠ 0 ∧ ((ckptT .ready 0 id).ctx 0).phase ≠ .running ∧
    (((ckptT .ready 0 id).ctx 0).ckpt.map (fun k => (k.captured, k.voids, k.desc.opd 37 3))) = some (false, none, 0) ∧
    ((ckptAt [] .running (some { ckptA with captured := true })).ctx 0).phase = .running ∧
    ((ckptAt [] .ready (some { ckptA with captured := true })).ctx 0).phase ≠ .running := by decide +kernel

/-- A checkpoint of one record page, whose staging area is the last page of an extent of 2 MiB. -/
theorem test_checkpointStage_hypotheses :
    let k := { ckptS with recPages := 1, desc := { ckptS.desc with bytes := descOf 0x50 [(24, 2 ^ 21 - 4096), (32, 1)] } }
    let s := { dev with ctxs := [(0, { domCtx .running with params := { extentBytes := 2 ^ 21 }, ckpt := some k })], regs := [(0x50008, BitVec.ofNat 64 (2 ^ 11))] }
    (s.ckptRecord 0 k ++ k.image).length = 4096 ∧ s.checkExtent (some 0) (k.desc.opd 24 8) 4096 = .ok (2 ^ 21 - 4096) ∧ k.desc.opd 32 4 ≠ 0 ∧
    k.captured = true ∧ k.released = false := by decide +kernel

/-- A context whose shelf map can be read, and a checkpoint of it that took poison, or has its rest in the staging area. -/
def ckptR (k : Ckpt) : State :=
  { dev with
    ctxs := [(0, { domCtx .ready with params := { mapEntries := 64, extentBytes := 2 ^ 21 }, ckpt := some k })]
    regs := [(0x50008, BitVec.ofNat 64 (2 ^ 11))] }

theorem test_checkpointReads_hypotheses (captured poison : Bool) :
    let k := { ckptA with captured := captured, poison := poison }
    (ckptR k).ckptReadable 0 k := by
  intro k
  refine ⟨fun _ => rfl, fun e he => ?_, fun p hp => by simp [ckptR, State.ctx, domCtx, mget, mfind] at hp⟩
  have : e = (0, 512, 0) := by
    simpa [k, ckptA, State.ckptSpans, Ctx.mapped, placeSpans, ckptR, State.ctx, domCtx, mget, mfind] using he
  subst this
  exact ⟨0, by cases captured <;> cases poison <;> decide +kernel⟩

theorem test_checkpointPoison_hypotheses :
    ((ckptR { ckptA with captured := true, poison := true }).ctx 0).ckpt = some { ckptA with captured := true, poison := true } ∧
    ((ckptR ckptA).ctx 0).phase ≠ .running ∧ ckptS.written = false ∧ ckptS.desc.opd 32 4 ≠ 0 ∧ ckptS.record = [] ∧
    ((ckptR ckptS).hubRead 0 (ckptS.desc.opd 24 8 + 4096 * ckptS.recPages) ckptS.image.length []).2.1 = [] := by decide +kernel

/-- A RESTORE from vault offset 0, which a decoder of this partition, of another one or none holds. -/
def restoreVault (cfg : Nat) : State :=
  qAt (descOf 0x51 [(1, 3), (24, 1)]) (fun s => { s with
    ctxs := [(0, domCtx .ready)], regs := [(0x50C00, BitVec.ofNat 64 cfg)], mem := { keys := [(0, { owner := some 0, hatchKey := some [] })] } })

theorem test_restoreVault_hypotheses :
    [(2 ^ 33 + 2 ^ 14, false, []), (2 ^ 33 + 2 ^ 29 + 2 ^ 14, false, [0]), (0, true, [0])].all (fun (p : Nat × Bool × List Nat) =>
      startsWith (restoreVault p.1) (fun d u => decide (d.opcode = 0x51 ∧ d.opd 1 1 = 3) && d.reservedOk [(0, 2), (8, 20)] &&
        decide (u.hatchKey 0 ≠ none ∧ u.phaseOf 0 = .ready ∧ (u.ctx 0).reqs = [] ∧ u.restoreUnmapped d = p.2.1 ∧ u.restoreGaps d 4096 = p.2.2))) = true := by
  decide +kernel

/-- The header of a checkpoint of no page: the plan, the weights and the geometry of a context whose digests are zeros. -/
def hdrA : List Byte := [0x4C, 0x4D, 0x43, 0x4B] ++ leBytes 4 1 ++ List.replicate (0xFF0 - 8) 0
def zeros64 : List Byte := List.replicate 64 0
def restoreDesc : List Byte := descOf 0x51 [(1, 1), (24, 1)]
def restoreCtx : Ctx := { domCtx .ready with plan := some { plan0 with digest := zeros64 }, weights := some { setA with digest := zeros64 } }
def restoreFrom (m : Option Domain) : State :=
  qAt restoreDesc (fun s => { s with
    ctxs := [(0, restoreCtx)], dom := m, clk := { s.clk with markAcq := true }, mem := { keys := [(0, { owner := some 0, hatchKey := some [] })] } })

/-- A tag that verifies opens what it was made for. -/
theorem gcmDecrypt_own (key iv aad ct : List Byte) : (gcmDecrypt key iv aad ct (gcmTag (aesKeys key) iv aad ct)).isSome = true := by
  simp [gcmDecrypt]

/-- R409, R410: the header, whatever its tag, passes the checks, and the restored state may start. -/
theorem test_restore_hypotheses (tag : List Byte) :
    ((hdrA ++ tag).take 4 = [0x4C#8, 0x4D, 0x43, 0x4B] ∧ fieldAt (hdrA ++ tag) 4 2 = 1 ∧ fieldAt (hdrA ++ tag) 0x28 8 = 0 ∧ ckptBytes 0 = 4096) ∧
    openPages [] [] (hdrA ++ tag) 0 = some [] ∧
    startsWith (restoreFrom none) (fun d u => decide (d.opcode = 0x51) && d.reservedOk [(0, 2), (8, 20)] && decide (d.opd 1 1 = 1 ∧
      u.hatchKey 0 ≠ none ∧ u.phaseOf 0 = .ready ∧ (u.ctx 0).reqs = []) && !u.domainMode && !u.markBad) = true := by
  refine ⟨⟨?_, ?_, ?_, ?_⟩, ?_, ?_⟩ <;> rfl

/-! ### Plans, steps and draws -/

/-- A plan start by REQ_ADMIT at its frame, or one of a domain, in a unit as given, whose other context runs its plan or not. -/
def admitRef : DescRef := ⟨0, 0, 0, [0x20], 4, 0, 0⟩
def launchIn (d : DescRef) (x : SlipUnit) (busy mark : Bool) : State :=
  { dev with
    ctxs := (0, { phase := .ready, plan := some plan0, steps := 9, step := { base := 9, starting := some (some 0), desc := some d } }) ::
      (if busy then [(1, { phase := .running, plan := some plan0 })] else [])
    clk := { locked := true, markAcq := mark, units := [(0, x)] } }
def domRef : DescRef := ⟨0, 0, 0, [0x40], 4, 0, 0⟩

/-- No staging entry is due and no break stands. -/
def beatGoes (s : State) : Bool := !(s.stagingDue 0 false).1 && ((s.stagingDue 0 false).2.unit 0).breaks.isEmpty

theorem test_planStart_hypotheses :
    [admitRef, domRef, { domRef with bytes := [0x42] }].all (fun d =>
      let s := launchIn d {} false true
      let b := launchIn d { inBeat := true, started := 9, nextSlot := 1 } true true
      s.clk.locked && s.startsNow 0 && !s.markBad && decide ((s.ctx 0).step.starting = some (some 0) ∧ s.active 0 = [] ∧ s.link.nextEpoch = none) &&
        beatGoes ((s.wakeUnit 0 1).launch 0 0 (d.opcode == 0x42) []) &&
      b.startsNow 0 && !b.markBad && decide (b.active 0 = [1] ∧ b.link.nextEpoch = none) && beatGoes (b.launch 0 9 (d.opcode == 0x42) [])) = true ∧
    (launchIn admitRef { inBeat := true, started := 9 } true true).startsNow 0 = true ∧ (launchIn admitRef {} false false).markBad = true ∧
    (launchIn admitRef {} false false).startsNow 0 = true ∧ (launchIn domRef {} false true).domNext = none := by decide +kernel

/-- A replay of the step that failed, at the next slot boundary. -/
def replayAt : State :=
  { dev with
    ctxs := [(0, { phase := .running, plan := some plan0, steps := 9, lastCommit := 8, step := { base := 9, starting := some none } })]
    clk := { locked := true, markAcq := true, units := [(0, { stopped := true })] } }

theorem test_replay_hypotheses :
    replayAt.startsNow 0 = true ∧ replayAt.running 0 = [0] ∧ replayAt.markBad = false ∧
    beatGoes ((replayAt.wakeUnit 0 1).launch 0 0 true []) = true := by decide +kernel

/-- A step whose end mark has passed, with a cause against it or none. -/
def endCtx (k : Option Nat) (rep : Bool) : Ctx := { phase := .running, plan := some plan0, steps := 1, step := { endDue := some k, repeat_ := rep } }
def endAt (k : Option Nat) : State := { dev with ctxs := [(0, endCtx k false)] }
def endBad : State := { endAt none with tiles := [(0, { Tile.reset with poison := true })] }

/-- The end of a repeat step in a domain whose plan uses a region that is fenced. -/
def endFenced (rep : Bool) : State :=
  { dev with ctxs := [(0, endCtx none rep)], dom := some ⟨1, 0, 0, false⟩, clk := { dev.clk with regions := [(0, { fenced := true })] } }

theorem test_stepCommit_hypotheses :
    (endAt none).faults.coreFault = false ∧ ((endAt (some 6)).ctx 0).step.endDue = some (some 6) ∧ ((endAt (some 6)).ctx 0).waits = [] ∧
    ((endAt none).ctx 0).step.endDue = some none ∧ (endAt none).tilesOf 0 = tilesOfRegion 0 ∧ ((endAt none).drawReads 0 []).1 = false ∧
    ((endAt none).tilesOf 0).all (fun k => !((endAt none).tile k).poison) = true ∧ ((endAt none).ctx 0).step.repeat_ = false ∧
    (endBad.tile 0).poison = true ∧ (endBad.tilesOf 0).contains 0 = true ∧ (endCtx none true).step.repeat_ = true ∧
    (endFenced true).domainMode = true ∧ (endFenced true).usesFenced 0 = true ∧ ((endFenced true).ctx 0).stopAt = none ∧
    ((endFenced true).tilesOf 0).all (fun k => !((endFenced true).tile k).poison) = true ∧ ((endFenced true).drawReads 0 []).1 = false := by decide +kernel

/-- The row test of tile 4095, whose region has taken three of its four repairs. -/
def rowAt : State := { dev with faults := { rowTests := [4095] }, clk := { locked := true, regions := [(63, { repairSlots := 3, spareRows := [4094] })] } }

theorem test_rowTest_hypotheses :
    (nub [32, 32]).length = 1 ∧ (nub [32, 0]).length = 2 ∧ (rowAt.region 63).spareTileRow = false ∧
    rowAt.faults.rowTests.contains 4095 = true ∧ regionOfTile 4095 = 63 ∧ (rowAt.region 63).repairSlots < 4 ∧
    (rowAt.region 63).spareRows.contains 4095 = false := by decide +kernel

/-- A feed due at the last boundary; a request to cancel, and one whose output has stopped. -/
def feedA : Feed := ⟨some loadDesc, false, 0, 1, true⟩
def boundaryAt (r : Req) (l : List (Nat × Deferred)) : State := { dev with ctxs := [(0, { reqCtx 0 [(65535, r)] with deferred := l })] }
def cancelA : Req := { reqA with cancelled := true, cancels := [(loadDesc, 0)] }

theorem test_boundary_hypotheses :
    mfind ((boundaryAt reqA [(6, .feed 65535 feedA [])]).ctx 0).reqs 65535 = some reqA ∧ reqA.id = 65535 ∧ reqA.phase ≠ .idle ∧
    ((boundaryAt reqA [(6, .feed 65535 feedA [])]).ctx 0).deferred = [(6, .feed 65535 feedA [])] ∧
    ((boundaryAt reqA [(6, .feed 65535 feedA [])]).ctx 0).steps = 6 ∧ ((boundaryAt reqA []).ctx 0).phase = .running ∧
    ((boundaryAt reqA []).ctx 0).step.endDue = none ∧ ((boundaryAt reqA []).ctx 0).step.starting = none ∧
    mfind ((boundaryAt cancelA []).ctx 0).reqs 65535 = some cancelA ∧ cancelA.cancelled = true ∧ cancelA.stopped = false ∧
    (boundaryAt cancelA []).clk.locked = true ∧ cancelA.id = 65535 ∧ { cancelA with stopped := true, phase := .active }.effect = none ∧
    (boundaryAt cancelA []).domainMode = false ∧
    mfind ((boundaryAt { cancelA with stopped := true, phase := .active } []).ctx 0).reqs 65535 = some { cancelA with stopped := true, phase := .active } := by
  decide +kernel

/-- Two FP32 logits of node 64 of slot 1 from a tile of the engine; and a slot whose two logits are there, the larger for token 1. -/
def logitBytes : List Byte := leBytes 4 0 ++ leBytes 2 1 ++ leBytes 2 64 ++ leBytes 8 2 ++ leBytes 4 0x3F800000 ++ leBytes 4 0x40000000
def logitAt : State :=
  { devA [(0, { idleTile with sends := [⟨7, .hub 0 0, 24, logitBytes, false⟩] })] with ctxs := [(0, reqCtx 0 [])] }
def drawReq : Req := { reqA with phase := .active, live := true, slot := some 1, last := true }
def drawAt : State :=
  { dev with ctxs := [(0, { reqCtx 0 [(65535, drawReq)] with logits := [(logitKey 0 1 0, { vals := [(0, 0x3F800000), (1, 0x40000000)] })] })] }

theorem test_draw_hypotheses :
    (logitAt.ctx 0).engine 0 = some (engineB 0) ∧ (logitAt.tile 0).sends = [⟨7, .hub 0 0, 24, logitBytes, false⟩] ∧ logitBytes.length = 24 ∧
    logitAt.ctxOfTile 0 = some 0 ∧ (logitAt.tile 0).events = [] ∧ fieldAt logitBytes 7 1 ≤ 1 ∧ fieldAt logitBytes 6 1 = 64 ∧
    fieldAt logitBytes 4 2 < (engineB 0).slots ∧ (drawAt.ctx 0).engine 0 = some (engineB 0) ∧ (drawAt.ctx 0).plan.isSome = true ∧
    (drawAt.ctx 0).reqs = [(65535, drawReq)] ∧ drawReq.engine = 0 ∧ (engineB 0).sample = true ∧ drawReq.draw = {} ∧ drawReq.masked = false ∧
    drawReq.penWindow = 0 ∧ drawReq.temp = 0 ∧ drawReq.inTree = none ∧
    (mget {} (drawAt.ctx 0).logits (logitKey 0 1 0)).vals.length = (engineB 0).vocab ∧ (mget {} (drawAt.ctx 0).logits (logitKey 0 1 0)).poison = false ∧
    [0x3F800000#32, 0x40000000#32].all (fun v => !F32.isNaN v && decide (v ≠ 0x7F800000#32)) = true ∧ flt 0x3F800000#32 0x40000000#32 = true := by
  decide +kernel

/-- A tree due at the boundary; a cancelled request that is queued, and one whose plan does not run. -/
def stoppedReq (p : ReqPhase) : Req := { cancelA with stopped := true, phase := p }
def notRunning : State :=
  let s := boundaryAt (stoppedReq .active) []
  { s with ctxs := [(0, { s.ctx 0 with phase := .ready })] }

theorem test_cancelCases_hypotheses :
    ((boundaryAt reqA [(6, .tree 65535 ⟨some loadDesc, 1, [], false⟩ [])]).ctx 0).deferred.filter (fun p => decide (p.1 ≤ 6)) = [(6, .tree 65535 ⟨some loadDesc, 1, [], false⟩ [])] ∧
    mfind ((boundaryAt (stoppedReq .queued) []).ctx 0).reqs 65535 = some (stoppedReq .queued) ∧
    mfind (notRunning.ctx 0).reqs 65535 = some (stoppedReq .active) ∧ (notRunning.ctx 0).phase ≠ .running ∧
    (stoppedReq .queued).effect = none ∧ (stoppedReq .active).phase ≠ .retired := by decide +kernel

/-- The masked draw reads a mask that allows token 1 alone; logits of a place that the engine does not have. -/
def maskedAt : State :=
  let s := drawAt
  { s with
    ctxs := [(0, { s.ctx 0 with params := { extentBytes := 2 ^ 21 }, reqs := [(65535, { drawReq with masked := true })] })]
    regs := [(0x50008, BitVec.ofNat 64 (2 ^ 11))], mem := { cellar := [(8192, 2)] } }

theorem test_drawCases_hypotheses :
    (let r := { drawReq with masked := true, recBase := 0 }
     ((maskedAt.hubRead 0 (r.recBase + 8192) 1 []).1.getD 0 0).getLsbD 1 = true ∧ (maskedAt.hubRead 0 8192 1 []).2.1 = []) ∧
    drawReq.drawNode = 0 ∧ flt 0#32 drawReq.temp = false ∧ drawReq.phase = .active ∧ (drawAt.ctx 0).phase = .running ∧
    drawReq.output.take drawReq.penWindow = [] ∧ (0x40000000#32 : F32) ≠ 0xFF800000#32 ∧ (engineB 0).slots ≤ 0xFFFF := by decide +kernel

/-! ### The fabric -/

/-- Port p in a state, with its lanes, present and enabled; every other port is as it is at reset. -/
def pstatOf (st lanes : Nat) : W64 := BitVec.ofNat 64 (st + lanes * 2 ^ 12 + 2 ^ 16 + 2 ^ 17)
def linkAt (p st lanes : Nat) (x : LinkPort) : State := { dev with regs := [(pstat p, pstatOf st lanes)], link := { ports := [(p, x)] } }

theorem test_training_hypotheses :
    [psDetect, psEqualise, psAlign, psKeying, psMeasure, psQuarantine, psDown].all (fun st => decide ((linkAt 23 st 15 {}).pstate 23 = st)) = true ∧
    1024 ≤ ((linkAt 23 psMeasure 15 { echoes := 1024, rtt := 4200 }).lport 23).echoes ∧
    ((linkAt 23 psMeasure 15 { echoes := 1024, rtt := 4200 }).lport 23).rtt = rttLimit 23 ∧ (linkAt 23 psMeasure 15 {}).failedLanes 23 = 0 ∧
    rttLimit 23 < ((linkAt 23 psMeasure 15 { echoes := 1024, rtt := 4201 }).lport 23).rtt ∧ rttLimit 18 = 9800 ∧
    (linkAt 23 psDown 15 {}).seesPort 0 23 = true ∧ (linkAt 23 psDown 15 {}).domainMode = false ∧ (linkAt 23 psDown 15 {}).portUsable 23 = true ∧
    ({ linkAt 23 psDown 15 {} with regs := [(pstat 23, 10)] } : State).portUsable 23 = false ∧
    ({ linkAt 23 psDown 15 {} with dom := some ⟨1, 0, 0, false⟩ } : State).domainMode = true := by decide +kernel

theorem test_messagesSent_hypotheses :
    (linkAt 23 psCheck 15 {}).pstate 23 = psCheck ∧ (linkAt 23 psQuarantine 15 {}).pstate 23 = psQuarantine ∧
    (linkAt 23 psKeying 15 {}).pstate 23 = psKeying ∧ ((linkAt 23 psKeying 15 {}).lport 23).sentFinal = false := by decide +kernel

/-- A complete message of a subtype, and an incomplete one. -/
def partsOf (sub : Nat) (body : List Byte) (got : Nat) : LinkPort := { msgIn := [(sub * 256 + 7, ⟨7, 1, got, 5, body, false⟩)] }
def takes (p sub : Nat) (body : List Byte) (st : Nat) (ok : List Byte → Bool) : Bool :=
  match (linkAt p st 15 (partsOf sub body 1)).takeMessage p sub ok with | some (m, _) => decide (m.body = body) | none => false

/-- The check message of port 17 of device 5 with slice 1 and link version 2, and the charter's entry that it keeps. -/
def checkA : List Byte := leBytes 2 5 ++ [17, 2] ++ leBytes 6 0 ++ leBytes 2 1 ++ leBytes 4 0 ++ dgA ++ List.replicate 28 0
def checkAt (e : Pairing) (slice ver : Nat) : State :=
  { linkAt 0 psCheck 15 (partsOf 3 checkA 1) with
    regs := [(pstat 0, pstatOf psCheck 15), (0x38, BitVec.ofNat 64 (ver * 2 ^ 32))], link := { ports := [(0, partsOf 3 checkA 1)], pairing := [(0, e)], slice := slice } }
/-- The first mismatch of R257 in each state: of a wrong port, device, hash, slice and version, and none. -/
def checkCase (e : Pairing) (slice ver : Nat) : Option Nat := (checkAt e slice ver).checkFault 0 checkA

theorem test_checkMessage_hypotheses :
    takes 0 3 checkA psCheck (fun _ => true) = true ∧ takes 23 3 checkA psActive (fun _ => true) = true ∧
    checkCase ⟨5, 16, dgA⟩ 1 2 = some rePairing ∧ checkCase ⟨6, 17, dgA⟩ 1 2 = some rePairing ∧ checkCase ⟨5, 17, dgB⟩ 1 2 = some reIdentity ∧
    checkCase ⟨5, 17, dgA⟩ 0 2 = some reSlice ∧ checkCase ⟨5, 17, dgA⟩ 1 3 = some reVersion ∧ checkCase ⟨5, 17, dgA⟩ 1 2 = none ∧
    (checkAt ⟨5, 17, dgA⟩ 1 2).pstate 0 = psCheck := by decide +kernel

/-- A keying message under the key of exponent 1, and the digest that it signs (by hand from FIPS 180-4). -/
def keyingA : List Byte := List.replicate 96 3 ++ keyA ++ leBytes 2 0 ++ [17, 1]
def shaKeying : List Byte := beBytes 64 0x89ab917f3e24e5d1517b9a09e66d2874db5495788311f77177af7f243729262c1576daf178518efc627ed1e17f51eeb6331178f29b0cab340247b031d83e89ab
def keyMsg : List Byte := keyingA ++ pkcs1 512 shaKeying ++ List.replicate 24 0
def keyAt0 (hash : List Byte) : State := linkAt 0 psKeying 15 { partsOf 4 keyMsg 1 with nbHash := hash }

theorem test_keyingMessage_hypotheses :
    takes 0 4 keyMsg psKeying (fun _ => true) = true ∧ (keyAt0 shaKey).pstate 0 = psKeying ∧ ((keyAt0 shaKey).lport 0).txOn = false ∧
    sha512 ((keyMsg.drop 96).take 516) = shaKey ∧ shaKey ≠ dgA ∧ fieldAt keyMsg 612 2 = (keyAt0 shaKey).link.slice ∧
    rsaVerify ((keyMsg.drop 96).take 512) ((keyMsg.drop 608).take 4) ((keyMsg.drop 616).take 512) (keyMsg.take 616) = true := by decide +kernel

theorem test_probes_hypotheses :
    takes 23 2 (List.replicate 36 0) psMeasure (fun b => fieldAt b 4 1 == 0) = true ∧
    takes 23 2 (leBytes 4 0 ++ leBytes 8 1 ++ List.replicate 24 0) psMeasure (fun b => fieldAt b 4 1 == 1) = true ∧
    (match ((linkAt 23 psMeasure 15 (partsOf 3 [] 0)).lport 23).msgIn.find? (fun m => m.1 / 256 == 3 && decide (m.2.got < m.2.parts)) with
     | some (key, _) => decide (key = 775) | none => false) = true ∧
    ((linkAt 23 psActive 15 { fsIn := [(5, crate3)] }).lport 23).fsIn = [(5, crate3)] ∧ (linkAt 23 psActive 15 {}).dom = none := by decide +kernel

/-- A codeword of SEQ 65535 with its CRC, or with its CRC and one. -/
def wordHead : List Byte := leBytes 636 65535
def wordOf (n : Nat) : List Byte := wordHead ++ leBytes 4 (crc32 wordHead + n)

theorem take_wordOf (n : Nat) : (wordOf n).take 636 = wordHead := List.take_left' (length_leBytes 636 65535)
theorem crc_wordOf (n : Nat) : fieldAt (wordOf n) 636 4 = (crc32 wordHead + n) % 2 ^ 32 := by
  have h : (wordOf n).drop 636 = leBytes 4 (crc32 wordHead + n) := List.drop_left' (length_leBytes 636 65535)
  rw [fieldAt, h, List.take_of_length_le (by simp), leNat_leBytes, show (256 : Nat) ^ 4 = 2 ^ 32 by decide]

theorem test_crc : crc32 ((wordOf 0).take 636) = fieldAt (wordOf 0) 636 4 ∧ crc32 ((wordOf 1).take 636) ≠ fieldAt (wordOf 1) 636 4 := by
  rw [take_wordOf, take_wordOf, crc_wordOf, crc_wordOf]
  have h : crc32 wordHead < 2 ^ 32 := (BitVec.isLt _)
  omega

/-- A codeword to resend. -/
def sentA : SentWord := ⟨65535, List.replicate 624 0, List.replicate 4 0, false, 0, 0, []⟩

theorem test_codewords_hypotheses :
    (linkAt 23 psAlign 15 {}).pstate 23 = psAlign ∧ (linkAt 23 psActive 15 { resend := [sentA] }).pstate 23 = psActive ∧
    ((linkAt 23 psActive 15 { resend := [sentA] }).lport 23).resend = [sentA] ∧ (linkAt 23 psActive 15 {}).failedLanes 23 = 0 ∧
    ((linkAt 23 psActive 15 { plan := [crate3] }).lport 23).plan = [crate3] ∧ ((linkAt 23 psActive 15 { plan := [crate3] }).lport 23).replay.length < 256 ∧
    (linkAt 23 psActive 15 {}).quiesced = false ∧
    (wordOf 0).length = 640 ∧ (wordOf 1).length = 640 ∧ fieldAt (wordOf 0) 6 1 / 2 % 2 = 0 ∧
    fieldAt (wordOf 0) 0 2 = ((linkAt 23 psActive 15 { rxNext := 65535 }).lport 23).rxNext ∧
    ((linkAt 23 psActive 15 { rxNext := 65535 }).lport 23).rxOn = false ∧ fieldAt (wordOf 0) 0 2 ≠ ((linkAt 23 psActive 15 {}).lport 23).rxNext ∧
    ((linkAt 23 psActive 15 { nakAt := 1 }).lport 23).nakAt ≠ 0 ∧ ((linkAt 23 psActive 15 { nakAt := 1 }).lport 23).nak = false ∧
    ((linkAt 23 psActive 15 { intervals := List.replicate 8 (0, []) }).lport 23).intervals.length < 9 := by decide +kernel

/-- Ports 0 to 17 up on a module of device 0, with or without sibling. -/
def laneAt (p st lanes : Nat) (x : LinkPort) (sib : Bool) : State :=
  { linkAt p st lanes x with regs := [(pstat p, pstatOf st lanes)] ++ (if sib then [(pstat (p + 1), pstatOf psActive 15)] else []) ++
      (if sib then [(0x41008, BitVec.ofNat 64 (2 ^ 4 + 15))] else []) }

theorem test_lanes_hypotheses :
    [(0, psActive, true), (0, psAlign, false), (0, psActive, false)].all (fun (c : Nat × Nat × Bool) => let s := laneAt c.1 c.2.1 15 {} c.2.2
      decide (s.field 0 (pstat c.1) 15 12 = 15) && decide (psAlign ≤ s.pstate c.1 ∧ s.pstate c.1 < psDown) && !isGlobal c.1 &&
      (s.hasSibling c.1 == c.2.2)) = true ∧
    (laneAt 0 psActive 7 {} true).field 0 (pstat 0) 15 12 = 15 - 2 ^ 3 ∧
    isGlobal 18 = true ∧ (laneAt 18 psActive 15 {} true).field 0 (pstat 18) 15 12 = 15 ∧ (laneAt 18 psActive 15 {} true).hasSibling 18 = true ∧
    (laneAt 18 psActive 15 {} false).hasSibling 18 = false ∧ ((laneAt 18 psActive 15 {} true).lport 18).lostLock = [] ∧
    ((laneAt 18 psActive 15 { lostLock := [(3, 0)] } true).lport 18).lostLock = [(3, 0)] ∧
    (laneAt 18 psActive 15 { lostLock := [(3, 0)] } true).clk.tick ≤ 0 + 140000 ∧
    (laneAt 0 psActive 7 {} true).failedLanes 0 = 1 ∧ (laneAt 0 psActive 7 {} true).hasSibling 0 = true := by decide +kernel

/-- Port 1 of a cable to device 5 with a fold message about its sibling, port 0, which has folded. -/
def foldAt0 : State :=
  { laneAt 0 psFolded 15 { stranded := [(0, crate3)] } true with
    regs := [(pstat 0, pstatOf psFolded 15), (pstat 1, pstatOf psActive 15), (pnbr 0, BitVec.ofNat 64 (5 + 16 * 2 ^ 16 + 2 ^ 61)),
      (pnbr 1, BitVec.ofNat 64 (5 + 17 * 2 ^ 16 + 2 ^ 61))],
    link := { ports := [(0, { stranded := [(0, crate3)] }), (1, partsOf 5 ([16] ++ List.replicate 35 0) 1)] } }

theorem test_fold_hypotheses :
    (foldAt0.takeMessage 1 5 (fun _ => true)).isSome = true ∧ foldAt0.pstate 0 = psFolded ∧
    (foldAt0.siblings 1).find? (fun r => foldAt0.field 0 (pnbr r) 61 61 == 1 && foldAt0.field 0 (pnbr r) 20 16 == 16 % 32 &&
      foldAt0.observed r == foldAt0.observed 1) = some 0 := by decide +kernel

def farCrate (kind cls : Nat) : Crate := mkCrate 1 0 0 cls kind 3 0 false (List.replicate 40 9)
def portOfRoute (r : Route) : Nat := match r with | .port q => q | _ => 99

/-- The same with other crates stranded: a tally with its fault message, a message of another port's fold, a broadcast copy; and a port that is
still ACTIVE. -/
def foldAtOf (st : Nat) (l : List Crate) : State :=
  { foldAt0 with
    regs := [(pstat 0, pstatOf st 7), (pstat 1, pstatOf psActive 15), (pnbr 0, BitVec.ofNat 64 (5 + 16 * 2 ^ 16 + 2 ^ 61)),
      (pnbr 1, BitVec.ofNat 64 (5 + 17 * 2 ^ 16 + 2 ^ 61))]
    link := { ports := [(0, { stranded := l.map (fun c => (0, c)) }), (1, partsOf 5 ([16] ++ List.replicate 35 0) 1)] } }
def tallyPair : List Crate := [farCrate 0x08 1, farCrate 0x09 1]
def castCopy : Crate := mkCrate 0xFFFF 0 0 3 0x04 0 0 false (List.replicate 40 9)
def foldNote : Crate := mkCrate 0 0 0 1 0x0A 0 0 false (5 :: List.replicate 39 9)
/-- The state in which the stranded crates go out, the message taken and an ACTIVE port folded. -/
def foldWent (s : State) : State :=
  match s.takeMessage 1 5 (fun _ => true) with | some (_, t) => if s.pstate 0 = psActive then t.foldPort 0 else t | none => s

theorem test_foldCrates_hypotheses :
    [tallyPair, [foldNote], [crate3], [castCopy]].all (fun l => let s := foldAtOf psFolded l
      (s.takeMessage 1 5 (fun _ => true)).isSome && decide (s.pstate 0 = psFolded) && decide (((foldWent s).siblings 0).find? (fun r => (foldWent s).pstate r == psActive) = some 1) &&
      decide (((foldWent s).lport 0).stranded = l.map (fun c => (0, c))) && l.all (fun c => decide ((0 + 2 ^ 16 - 0) % 2 ^ 16 < 2 ^ 15) && decide (c.kind ≠ 0))) = true ∧
    tallyPair.map (·.kind) = [0x08, 0x09] ∧ castCopy.isBcast = true ∧ foldNote.kind = 0x0A ∧ crate3.kind ≠ 0x08 ∧ crate3.kind ≠ 0x09 ∧ crate3.kind ≠ 0x0A ∧
    (foldAtOf psActive []).pstate 0 = psActive ∧ (foldAtOf psActive []).hasSibling 0 = true ∧ (foldWent (foldAtOf psActive [])).pstate 0 = psFolded ∧
    (let s := foldWent (foldAtOf psFolded tallyPair)
     tallyPair.all (fun c => decide (portOfRoute (s.routeOf c (s.storesOf (s.portPart 0))) = 1)) = true ∧ (s.lport 1).queued + 2 ≤ egressSize 1) := by decide +kernel

/-- R253: the pair goes out on the sibling in its order. -/
theorem test_foldCrates :
    (match exec (.foldStateReceive 1) (foldAtOf psFolded tallyPair) with
     | .next t => decide ((t.lport 1).ctl = tallyPair ∧ (t.lport 0).stranded = []) | _ => false) = true := by decide +kernel

theorem test_fold_room (r : Nat) : ((foldWent foldAt0).lport r).queued + 1 ≤ egressSize r := by
  have hr : 6656 ≤ egressSize r := by
    unfold egressSize
    split <;> decide
  have hp : (foldWent foldAt0).link.ports = [(0, { stranded := [(0, crate3)] })] := by decide +kernel
  have : ((foldWent foldAt0).lport r).queued = 0 := by
    simp only [State.lport, hp, mget, mfind]
    split <;> rfl
  omega

/-- R259, R229: an echo that comes late on an ACTIVE port. -/
def lateEcho (at_ : Nat) : State :=
  linkAt 23 psActive 15 { msgIn := [(519, ⟨7, 1, 1, at_, leBytes 4 0 ++ leBytes 8 1 ++ List.replicate 24 0, false⟩)], rtt := 9 }
theorem test_lateEcho :
    [(4200, psActive), (4201, psDown)].all (fun (c : Nat × Nat) => match exec (.echoReceive 23) (lateEcho c.1) with
      | .next t => decide (t.pstate 23 = c.2) | _ => false) = true := by decide +kernel

/-- R252, R255: presence with a good and with a bad lane, and without a cable. -/
theorem test_presence_hypotheses :
    [[], [2]].all (fun bad => decide ((bad.foldl (fun (v : State) l => v.laneFail 23 l) (linkAt 23 psDetect 15 {})).pstate 23 = psDetect)) = true ∧
    (linkAt 23 psDetect 15 {}).pstate 23 = psDetect := by decide +kernel

/-- Port 17 of device 0 with a crate, every other port of the rack up; the flow register of stream 3; a tile's crate. -/
def routeAt (c : Crate) (flow : W64) : State :=
  { dev with regs := (0x4A000 + 24, flow) :: (List.range 18).map (fun p => (pstat p, pstatOf psActive 15)),
             link := { ports := [(17, { ingress := [c] })] } }
def tallyCrate : Crate := mkCrate 0 0 0 1 0x08 3 0 false (List.replicate 40 9)
def fenceCrate : Crate := mkCrate 0 0 63 0 0x01 3 65535 true (List.replicate 40 9)
def flowA : W64 := BitVec.ofNat 64 (2 ^ 16 + 65535)
def sendAt : State :=
  { routeAt crate3 0 with tiles := [(4095, { idleTile with sends := [⟨7, .crate (farCrate 0x01 0).hdr, 40, List.replicate 40 9, false⟩] })] }

theorem test_routing_hypotheses :
    [farCrate 0x01 0, farCrate 0x02 2].all (fun c => let s := routeAt c flowA
      let q := portOfRoute (s.routeOf c (s.storesOf 0))
      decide ((s.lport 17).ingress = [c]) && !c.isBcast && decide (q < 18 ∧ q ≠ 17 ∧ (s.lport q).queued < egressSize q ∧ c.cls ≠ 1 ∧
        kindClass c.kind = some c.cls)) = true ∧
    [crate3, fenceCrate, tallyCrate].all (fun c => (match (routeAt c flowA).routeOf c [] with | .here => true | _ => false) && !c.isBcast) = true ∧
    (routeAt crate3 flowA).storesOf 0 = [] ∧ crate3.kind = 0x01 ∧ fenceCrate.kind = 0x01 ∧ tallyCrate.kind = 0x08 ∧ crate3.fence = false ∧
    fenceCrate.fence = true ∧ getBits ((routeAt crate3 flowA).reg 0 (0x4A000 + 8 * 3)) 16 16 = 1 ∧
    getBits ((routeAt crate3 flowA).reg 0 (0x4A000 + 8 * 3)) 15 0 = 65535 ∧ (routeAt fenceCrate flowA).blocked 17 = false ∧
    getBits ((routeAt crate3 0).reg 0 (0x4A000 + 8 * 3)) 16 16 = 0 ∧
    (sendAt.tile 4095).sends = [⟨7, .crate (farCrate 0x01 0).hdr, 40, List.replicate 40 9, false⟩] ∧ (sendAt.tile 4095).events = [] ∧
    (farCrate 0x01 0).cls = 0 ∧ (farCrate 0x01 0).fence = false := by decide +kernel

/-- An F crate held, whose tally of 1 has come and whose source's crate has or has not. -/
def heldAt (n : Nat) : State :=
  { dev with link := { held := [⟨fenceCrate, 17, 1, 65535, 0, false, false⟩], fences := [(65535, 3, 65535, 1)], received := [(131071, n)] } }
/-- A fault message of domain 1 from device 5, numbered 2. -/
def faultCrate : Crate := mkCrate 0 0 0 1 0x09 0 0 false (leBytes 2 0x301 ++ leBytes 2 5 ++ leBytes 4 2 ++ leBytes 3 1 ++ List.replicate 29 0)
def toldAt (d : Option Domain) (seen : List (Nat × Nat)) : State :=
  { dev with ctxs := [(0, { phase := .running })], dom := d, link := { faultIn := [(17, faultCrate)] }, faults := { seen := seen } }

theorem test_fences_hypotheses :
    (heldAt 1).link.held[0]? = some ⟨fenceCrate, 17, 1, 65535, 0, false, false⟩ ∧ fenceCrate.kind = 0x01 ∧ (heldAt 1).fenceMet ⟨fenceCrate, 17, 1, 65535, 0, false, false⟩ = true ∧
    (heldAt 0).fenceMet ⟨fenceCrate, 17, 1, 65535, 0, false, false⟩ = false ∧
    (toldAt none []).link.faultIn = [(17, faultCrate)] ∧ (toldAt none []).dom = none ∧
    (toldAt (some ⟨1, 0, 0, false⟩) [(5, 2)]).faults.seen.contains (fieldAt faultCrate.data 2 2, fieldAt faultCrate.data 4 4) = true ∧
    (toldAt (some ⟨1, 0, 0, false⟩) []).faults.seen.contains (fieldAt faultCrate.data 2 2, fieldAt faultCrate.data 4 4) = false ∧
    fieldAt faultCrate.data 0 1 = 1 ∧ fieldAt faultCrate.data 8 3 = 1 ∧ (toldAt (some ⟨1, 0, 0, false⟩) []).faults.told = none ∧
    ((toldAt (some ⟨1, 0, 0, false⟩) []).unit 0).stopped = false ∧ (toldAt (some ⟨1, 0, 0, false⟩) []).running 0 ≠ [] := by decide +kernel

/-- A codeword in sequence on a link with a key: the two groups before it are held, and its share ends the tag that verifies the first, or
does not. -/
def keyG : List Byte := List.replicate 32 1
def tagG : List Byte := gcmTag (aesKeys keyG) (groupIv 0) [] []
def groupPort (f : Option Nat) : LinkPort :=
  { rxNext := 65535, rxOn := true, rxKey := some keyG, rxCount := 7, rxTag := tagG.take 12, tagFail := f
    rxHeld := [⟨8, 0, 0, []⟩, ⟨9, 0, 0, []⟩, ⟨10, 0, 0, []⟩, ⟨11, 0, 0, []⟩, ⟨12, 0, 0, []⟩, ⟨13, 0, 0, []⟩, ⟨14, 0, 0, []⟩] }
def keyedHead (share : List Byte) : List Byte := leBytes 632 65535 ++ share
def keyedWord (share : List Byte) : List Byte := keyedHead share ++ leBytes 4 (crc32 (keyedHead share))

theorem test_keyedCrc (share : List Byte) (h : share.length = 4) :
    (keyedWord share).length = 640 ∧ crc32 ((keyedWord share).take 636) = fieldAt (keyedWord share) 636 4 := by
  have hl : (keyedHead share).length = 636 := by simp [keyedHead, h]
  have ht : (keyedWord share).take 636 = keyedHead share := List.take_left' hl
  have hd : (keyedWord share).drop 636 = leBytes 4 (crc32 (keyedHead share)) := List.drop_left' hl
  refine ⟨by simp [keyedWord, hl], ?_⟩
  rw [ht, fieldAt, hd, List.take_of_length_le (by simp), leNat_leBytes, show (256 : Nat) ^ 4 = 2 ^ 32 by decide]
  exact (Nat.mod_eq_of_lt (BitVec.isLt _)).symm

theorem test_groups_hypotheses :
    tagG.length = 16 ∧ (tagG.drop 12).length = 4 ∧ ((keyedHead (tagG.drop 12)).drop 632).take 4 = tagG.drop 12 ∧
    fieldAt (keyedHead (tagG.drop 12)) 6 1 / 2 % 2 = 0 ∧ fieldAt (keyedHead (tagG.drop 12)) 0 2 = 65535 ∧
    (linkAt 23 psActive 15 (groupPort none)).blocked 23 = false ∧ (linkAt 23 psActive 15 (groupPort none)).pstate 23 = psActive ∧
    ((linkAt 23 psActive 15 (groupPort none)).lport 23).rxCount % 4 = 3 ∧ ((linkAt 23 psActive 15 (groupPort none)).lport 23).rxHeld.length = 7 ∧
    (((linkAt 23 psActive 15 (groupPort none)).lport 23).rxHeld.take 4).flatMap (·.body) = [] ∧
    tagG = (groupPort none).rxTag ++ tagG.drop 12 ∧ tagG ≠ (groupPort none).rxTag ++ [0, 0, 0, 0] ∧ (groupPort (some 0)).tagFail = some 0 := by
  decide +kernel

/-- Ten intervals in a row with many replays; what a port in ACTIVE with all its lanes and no resend may fill. -/
theorem test_fill_hypotheses :
    (let x : LinkPort := { replays := 1001, intervals := List.replicate 9 (1001, [0, 0, 0, 0]) }
     ((x.replays, x.syms) :: x.intervals).take 10 = List.replicate 10 (1001, [0, 0, 0, 0])) ∧
    ((linkAt 23 psActive 15 {}).lport 23).lostLock = [] ∧ ((linkAt 23 psActive 15 {}).lport 23).resend = [] ∧
    ((linkAt 23 psActive 15 {}).lport 23).txOn = false ∧ (linkAt 23 psActive 14 {}).failedLanes 23 = 1 := by decide +kernel

/-- A check message at the boot ROM's port, and a message that was given up. -/
def bootPort (s : State) : State := { s with boot := { s.boot with link := some 0 } }
theorem test_messages_hypotheses :
    (bootPort (linkAt 0 psCheck 15 (partsOf 3 checkA 1))).boot.link = some 0 ∧
    ((bootPort (linkAt 0 psCheck 15 (partsOf 3 checkA 1))).takeMessage 0 3 (fun _ => true)).isSome = true ∧
    (((linkAt 23 psMeasure 15 { msgIn := [(775, ⟨7, 3, 1, 5, [], true⟩)] }).lport 23).msgIn.find?
      (fun m => m.1 / 256 == 3 && decide (m.2.got < m.2.parts))).isSome = true ∧
    ((linkAt 23 psActive 15 { fsIn := [(5, crate3)] }).domNext = none) := by decide +kernel

/-- The fabric of a device of eight partitions, or of one, from port 0 on the west to port 3 on the east of row 0. -/
def eightAt (n : Nat) : State :=
  { dev with
    regs := (0x10, 2 ^ 64 - 1) :: (0x28, BitVec.ofNat 64 n) :: (List.range 18).map (fun p => (pstat p, pstatOf psActive 15))
    link := { ports := [(17, { ingress := [farCrate 0x01 0] })] } }
def lostCrate : Crate := mkCrate 64 0 0 0 0x01 3 0 false (List.replicate 40 9)

theorem test_openLinks_hypotheses :
    (eightAt 1).crossesOpen 0 3 (farCrate 0x01 0) = true ∧ (eightAt 8).crossesOpen 0 3 (farCrate 0x01 0) = false ∧ (eightAt 1).portServes 17 0 = true ∧
    (eightAt 8).portServes 3 0 = false ∧ (match (eightAt 1).routeOf lostCrate [] with | .none => true | _ => false) = true ∧
    (routeAt crate3 flowA).portServes 17 crate3.region = true ∧ crate3.tallied = true ∧ fenceCrate.tallied = true ∧ lostCrate.isBcast = false ∧
    (heldAt 1).portServes 17 fenceCrate.region = true ∧ (toldAt (some ⟨1, 0, 0, false⟩) []).pstate 0 ≠ psActive := by decide +kernel

/-- A full egress queue: on the port that a transit crate, or a tile's crate, takes. -/
def fullAt (c : Crate) : State :=
  let s := routeAt c flowA
  let q := portOfRoute (s.routeOf c (s.storesOf 0))
  { s with
    tiles := [(4095, { idleTile with sends := [⟨7, .crate c.hdr, 40, List.replicate 40 9, false⟩] })]
    link := { s.link with ports := s.link.ports ++ [(q, { plan := List.replicate 6656 crate3 })] } }
theorem test_fullQueue_hypotheses :
    [farCrate 0x01 0, farCrate 0x02 2].all (fun c => let s := fullAt c
      let q := portOfRoute (s.routeOf c (s.storesOf (s.portPart 17)))
      decide ((s.lport 17).ingress = [c]) && decide (q < 18 ∧ q ≠ 17 ∧ egressSize q = 6656) && s.crossesOpen 17 q c && s.portServes q 63 &&
        decide (portOfRoute (s.routeOf c (s.storesOf (s.partOfRegion 63))) = q) && decide ((s.tile 4095).events = [])) = true ∧
    [farCrate 0x01 0, farCrate 0x02 2].all (fun c => let s := fullAt c
      decide ((s.lport (portOfRoute (s.routeOf c (s.storesOf 0)))).plan.length = 6656)) = true := by decide +kernel

/-- A fault message that finds a neighbour up, a plan that does not run, and an F crate of an epoch that is past. -/
theorem test_faultMessage_hypotheses :
    (let s := { toldAt (some ⟨1, 0, 0, false⟩) [] with ctxs := [], regs := [(pstat 0, pstatOf psActive 15)] }
     s.pstate 0 = psActive ∧ (s.lport 0).queued + 1 < egressSize 0 ∧ s.running 0 = []) ∧
    (heldAt 0).fenceMet ⟨fenceCrate, 17, 1, 65535, 0, false, true⟩ = true := by decide +kernel

/-! ### Power and boot -/

/-- A module off, with the given latched causes and input. -/
def offAt (l : List Nat) (lost : Bool) : State := { State.reset with power := { latched := l, lost := lost } }
/-- A powered device whose first fifteen slots of the power history are used. -/
def histAt : State := { dev with power := { good := true }, boot := { presented := true, fuses := { history := (List.range 15).map (fun i => (i, 5)) } } }

theorem test_powerUpAndShutdown_hypotheses :
    (offAt [] false).power.good = false ∧ (offAt [] true).power.good = false ∧ (offAt [2] false).power.latched ≠ [] ∧
    (∀ c ∈ (offAt [1, 2] true).power.latched, c ≠ 3 ∧ c ≠ 4 ∧ c ≠ 5) ∧ (∃ c ∈ (offAt [1, 5] true).power.latched, c = 3 ∨ c = 4 ∨ c = 5) ∧
    histAt.power.good = true ∧ (mget 0 histAt.boot.fuses.history 15 : BitVec 8) = 0 ∧
    (∀ j, j < 15 → (mget 0 histAt.boot.fuses.history j : BitVec 8) &&& 0x0F ≠ 0) ∧ (mget 0 dev.boot.fuses.history 0 : BitVec 8) = 0 := by
  decide +kernel

/-- A powered device with a thermal request made, or a cap. -/
def powAt : State := { dev with power := { good := true, thermalAt := some 5 } }

theorem test_powerEvents_hypotheses :
    powAt.power.good = true ∧ powAt.power.thermalAt = some 5 ∧ powAt.capW < 3001 ∧ powAt.functions.contains 0 = true ∧
    powAt.isOwner 0 = true ∧ getBits (500#64) 11 0 = 500 ∧ getBits (3000#64) 11 0 = 3000 ∧ powAt.clk.locked = true := by decide +kernel

/-- Detectors that have fired. -/
def firedAt : State := { powAt with power := { powAt.power with fired := [0, 1, 4, 5, 6], thermalAt := none, capAt := some 3 } }
theorem test_detectors_hypotheses :
    firedAt.power.good = true ∧ [0, 1, 4, 5, 6].all firedAt.power.fired.contains = true ∧ powAt.power.fired = [] ∧ coolerThan 99 100 = true ∧
    coolerThan 100 100 = false ∧ coolerThan 44 45 = true ∧ coolerThan 17 18 = true ∧ coolerThan 18 18 = false ∧ firedAt.power.thermalAt = none ∧
    (∀ a ∈ [3000, 3000, 3000, 3000, 3000], firedAt.capW < a ∨ a ≤ 3000) ∧
    [1, 2, 3, 5, 6, 7, 8].all (fun id => sensorOk id (if id = 2 then 0 else if id = 1 then 40000 else 20) 66 || sensorOk id 20 0) = true := by decide +kernel

/-- R444: the current limit is 85 A below about 35.3 V and the current of 3,000 W above. -/
theorem test_currentLimit : currentLimitMa 35000 = 85000 ∧ currentLimitMa 48000 = 62500 := by decide +kernel

/-- R451, R452: rails rise in order, and a shorted rail of a module that runs goes at once. -/
theorem test_rails :
    (match exec (.railShort 5 none) { powAt with power := { powAt.power with rails := [0, 1, 2, 3, 4, 5, 6, 7] } } with
     | .next t => decide (t.power.rails = [0, 1, 2, 3, 4, 6, 7] ∧ t.power.good = false ∧ t.power.latched = [3]) | _ => false) = true ∧
    (match step { offAt [] false with power := { rising := true } } with | .next t => decide (t.power.rails = [0]) | _ => false) = true := by decide +kernel

/-- A module in its boot sequence. -/
def bootAt (rom : Bool) (fetching : Option Nat) (regs : Map W64) (fuses : Fuses) : State :=
  { State.reset with
    power := { good := true }, clk := { locked := true }, regs := regs,
    boot := { active := true, rom := rom, fetching := fetching, fuses := fuses } }

def sourceRegs (chain : Nat) : Map W64 := [(0x1210, BitVec.ofNat 64 (4096 + chain * 2 ^ 32)), (0x1218, 2 ^ 15), (0x1000, 2 ^ 12)]
/-- An image whose header is no header. -/
def noImage : List Byte := List.replicate 4096 0

theorem test_bootSteps_hypotheses :
    (bootAt false none [] {}).boot.rom = false ∧ (bootAt true none [] {}).boot.port = 0 ∧ (bootAt true none [] {}).field 0 0x10008 0 0 = 0 ∧
    (8 + 1 : W64).getLsbD 3 = true ∧ getBits (8 + 1 : W64) 1 0 = 1 ∧ (bootAt true none (sourceRegs 16384) {}).field 0 0x1000 12 12 = 1 ∧
    (bootAt true none (sourceRegs 16384) {}).field 0 0x1210 31 0 = 4096 ∧ (bootAt true none (sourceRegs 16384) {}).field 0 0x1210 47 32 = 16384 ∧
    (bootAt true none (sourceRegs 16384) {}).field 0 0x1218 15 15 = 1 ∧
    (bootAt true (some 0) (sourceRegs 0) {}).sourceBad = false ∧ (bootAt true (some 0) (sourceRegs 0) {}).field 0 0x1210 31 0 = noImage.length ∧
    (bootAt true (some 0) (sourceRegs 0) {}).bundleFault noImage (List.replicate 8192 0) [] = some (4, 2) ∧
    dev.boot.presented = true ∧ (∀ p, p < 24 → dev.portUsable p = true → psActive ≤ dev.pstate p) := by decide +kernel

/-! A bundle that passes every check.  The key's exponent is 1, so that the signature is the encoded digest itself. -/

theorem length_sha512 (m : List Byte) : (sha512 m).length = 64 := by
  have h : ∀ (n : Nat) (h : List W64) (bs : List Byte), h.length = 8 → (shaBlocks h bs n).length = 8 := by
    intro n
    induction n with
    | zero => intro h bs hl; exact hl
    | succ n ih => intro h bs _; exact ih _ _ rfl
  have hf : ∀ l : List W64, (l.flatMap (fun x => beBytes 8 x.toNat)).length = 8 * l.length := by
    intro l
    induction l with
    | nil => rfl
    | cons x l ih => rw [List.flatMap_cons, List.length_append, ih, beBytes, List.length_reverse, length_leBytes, List.length_cons]; omega
  rw [sha512, shaCore, hf, h _ _ _ rfl]

theorem beNat_append (l : List Byte) (b : Byte) : beNat (l ++ [b]) = beNat l * 256 + b.toNat := by simp [beNat]

theorem beBytes_reverse (l : List Byte) : beBytes l.length (beNat l.reverse) = l.reverse := by
  induction l with
  | nil => rfl
  | cons b l ih =>
    have hb := b.isLt
    have hd : (beNat l.reverse * 256 + b.toNat) / 256 = beNat l.reverse := by omega
    have hm : BitVec.ofNat 8 (beNat l.reverse * 256 + b.toNat) = b := by
      apply BitVec.eq_of_toNat_eq
      rw [BitVec.toNat_ofNat]
      omega
    rw [List.reverse_cons, beNat_append, List.length_cons, beBytes, leBytes, hd, hm, List.reverse_cons]
    exact congrArg (· ++ [b]) ih

theorem beBytes_beNat (l : List Byte) : beBytes l.length (beNat l) = l := by
  have h := beBytes_reverse l.reverse
  rwa [List.length_reverse, List.reverse_reverse] at h

theorem beNat_lt (l : List Byte) : beNat l < 256 ^ l.length := by
  have h : ∀ l : List Byte, beNat l.reverse < 256 ^ l.length := by
    intro l
    induction l with
    | nil => exact Nat.one_pos
    | cons b l ih =>
      have hb := b.isLt
      rw [List.reverse_cons, beNat_append, List.length_cons, Nat.pow_succ]
      omega
  have := h l.reverse
  rwa [List.length_reverse, List.reverse_reverse] at this

theorem beNat_zero (l : List Byte) : beNat (0 :: l) = beNat l := rfl

theorem powMod_zero (b n k : Nat) : powMod b 0 n k = 1 % n := by
  induction k generalizing b with
  | zero => rfl
  | succ k ih => simp [powMod, ih]

theorem powMod_one (b n k : Nat) : powMod b 1 n (k + 1) = b % n := by simp [powMod, powMod_zero]

theorem length_pkcs1 (m : List Byte) : (pkcs1 512 (sha512 m)).length = 512 := by
  simp only [pkcs1, List.length_append, List.length_replicate, length_sha512, List.length_cons, List.length_nil]

theorem keyA_parts : beNat (keyA.take 512) = 256 ^ 512 - 1 ∧ beNat (keyA.drop 512) = 1 := by decide +kernel

theorem signed_pkcs1 (body : List Byte) : signedBy keyA body (pkcs1 512 (sha512 body)) = true := by
  have hp : pkcs1 512 (sha512 body) = 0 :: (pkcs1 512 (sha512 body)).tail := rfl
  have hs : beNat (pkcs1 512 (sha512 body)) < 256 ^ 511 := by
    rw [hp, beNat_zero]
    have ht : (pkcs1 512 (sha512 body)).tail.length = 511 := by rw [List.length_tail, length_pkcs1]
    exact ht ▸ beNat_lt (pkcs1 512 (sha512 body)).tail
  have h1 : 1 < (256 : Nat) ^ 511 := by decide +kernel
  have hn : (256 : Nat) ^ 511 < 256 ^ 512 - 1 := by decide +kernel
  have hb := beBytes_beNat (pkcs1 512 (sha512 body))
  rw [length_pkcs1] at hb
  simp only [signedBy, rsaVerify, keyA_parts, powMod_one, Nat.mod_eq_of_lt (Nat.lt_trans hs hn), hb, beq_self_eq_true, Bool.and_true,
    Bool.and_eq_true, decide_eq_true_eq]
  exact ⟨Nat.lt_trans h1 hn, Nat.lt_trans hs hn⟩

/-- A firmware image of 4096 bytes: header (R372), key at 256, signature at 3584. -/
def fwBody (b : Bool) : List Byte :=
  [0x4C, 0x4D, 0x46, 0x57] ++ leBytes 4 1 ++ leBytes 8 4096 ++ [if b then 1 else 0] ++ leBytes 15 0 ++ leBytes 8 256 ++ leBytes 8 3584 ++ leBytes 208 0 ++ keyA ++
    leBytes 2812 0
def fwA (b : Bool) : List Byte := (fwBody b) ++ pkcs1 512 (sha512 (fwBody b))

/-- A charter (R375) for module 9 with serial number 5: one partition, with share 64 and nothing else. -/
def chHead (b : Bool) : List Byte := [0x4C, 0x4D, 0x43, 0x48] ++ leBytes 4 1 ++ leBytes 8 5 ++ List.replicate 8 0 ++ leBytes 2 9 ++ [0, 0, 1, 0, 0, 0, if b then 1 else 0]
def chTail : List Byte := keyA ++ List.replicate 0xDFC 0
def chBodyA (b : Bool) : List Byte := (chHead b) ++ (List.replicate 0xEF 0 ++ (64 :: (List.replicate 0xCEF 0 ++ chTail)))
def charterA (b : Bool) : List Byte := (chBodyA b) ++ pkcs1 512 (sha512 (chBodyA b))

/-- A certificate with the key, signed with it (X.509 in DER), and the digest of what it signs (by hand from FIPS 180-4). -/
def tbsA : List Byte := beBytes 35 0x3082022202010130003000300030003082021330000382020d00308202080282020100 ++ List.replicate 512 0xFF ++ [2, 1, 1]
def shaTbs : List Byte := beBytes 64 0x29dfb2adeca98747c4e2dd3f8911660a633daeecdd1705aef0e7a43c0bce22ccfffc6ab748e45225763a7d20e3e5d821000259f78c8269462a4f6945b2b6530f
def certA : List Byte := [0x30, 0x82, 0x04, 0x2D] ++ tbsA ++ [0x30, 0, 3, 0x82, 2, 1, 0] ++ pkcs1 512 shaTbs
def chainA : List Byte := certA ++ certA ++ certA

/-- The fuses of a module that is enrolled or not, and the module with its boot ROM's fetch under way and ENROL set. -/
def goodFuses (b e : Bool) : Fuses := { serial := 5, identity := keyA, enrolled := e, owner := if e then ownerHash (charterA b) else 0 }
def goodAt (b e : Bool) : State := bootAt true (some 0) ((0x1200, 4) :: sourceRegs 3219) (goodFuses b e)

theorem sha_tbsA : sha512 tbsA = shaTbs := by decide +kernel
theorem signed_tbsA : signedBy keyA tbsA (pkcs1 512 shaTbs) = true := sha_tbsA ▸ signed_pkcs1 tbsA

/-- The parts of a certificate at the front of a byte string, as data that can be compared. -/
def certParts (bs : List Byte) : Option (List Byte × List Byte × List Byte × List Byte) := (readCert bs).map (fun p => (p.1.body, p.1.key, p.1.sig, p.2))
theorem readCert_of_parts {bs b k g r : List Byte} (h : certParts bs = some (b, k, g, r)) : readCert bs = some (⟨b, k, g⟩, r) := by
  unfold certParts at h
  cases hc : readCert bs with
  | none => rw [hc] at h; cases h
  | some p => rw [hc] at h; cases h; rfl

theorem certs_one : certParts certA = some (tbsA, keyA, pkcs1 512 shaTbs, []) := by decide +kernel
theorem certs_two : certParts (certA ++ certA) = some (tbsA, keyA, pkcs1 512 shaTbs, certA) := by decide +kernel
theorem certs_three : certParts chainA = some (tbsA, keyA, pkcs1 512 shaTbs, certA ++ certA) := by decide +kernel

theorem chainOk_chainA (h : romRootHash = sha512 keyA) : chainOk chainA keyA = true := by
  simp only [chainOk, readCert_of_parts certs_three, readCert_of_parts certs_two, readCert_of_parts certs_one, h, signed_tbsA,
    List.isEmpty_nil, beq_self_eq_true, Bool.and_true]

variable (b e : Bool)

theorem image_fwA : imageHeaderOk (fwA b) 4096 = true ∧ imageKey (fwA b) = keyA ∧ fieldAt (fwA b) 0x28 8 = 3584 ∧ fieldAt (fwA b) 0x10 1 = (if b then 1 else 0) ∧
    fieldAt (fwA b) 0x11 3 = 0 := by
  cases b <;> decide +kernel
theorem length_fwBody : (fwBody b).length = 3584 := by cases b <;> decide +kernel
theorem length_chBodyA : (chBodyA b).length = 7680 := by cases b <;> decide +kernel

/-- A field within a run of zeros. -/
theorem fieldAt_zeros {c p q : List Byte} {k m o n : Nat} (hc : c = p ++ (List.replicate m 0 ++ q)) (hp : p.length = k) (h1 : k ≤ o)
    (h2 : o + n ≤ k + m) : fieldAt c o n = 0 := by
  have hz : ∀ j, leNat (List.replicate j 0) = 0 := by
    intro j
    induction j with
    | zero => rfl
    | succ j ih => rw [List.replicate_succ, leNat, ih]; rfl
  have hd : List.drop o p = [] := List.drop_eq_nil_of_le (by omega)
  rw [fieldAt, hc, List.drop_append, hd, List.nil_append, List.drop_append, List.drop_replicate, List.take_append_of_le_length (by simp; omega),
    List.take_replicate, hz]

theorem charter_zeros (o n : Nat) (h : 0x21 ≤ o ∧ o + n ≤ 0x110 ∨ 0x111 ≤ o ∧ o + n ≤ 0xE00 ∨ 0x1004 ≤ o ∧ o + n ≤ 0x1E00) : fieldAt (charterA b) o n = 0 := by
  have hh : (chHead b).length = 0x21 := by cases b <;> decide +kernel
  have hk : keyA.length = 516 := by decide +kernel
  rcases h with h | h | h
  · exact fieldAt_zeros (by rw [charterA, chBodyA, List.append_assoc, List.append_assoc]) hh h.1 (by omega)
  · exact fieldAt_zeros (p := (chHead b) ++ (List.replicate 0xEF 0 ++ [64])) (m := 0xCEF) (k := 0x111)
      (q := chTail ++ pkcs1 512 (sha512 (chBodyA b)))
      (by rw [charterA]; conv => lhs; lhs; rw [chBodyA]
          simp only [List.append_assoc, List.cons_append, List.nil_append])
      (by simp only [List.length_append, hh, List.length_replicate, List.length_singleton]) h.1 (by omega)
  · exact fieldAt_zeros (p := (chHead b) ++ (List.replicate 0xEF 0 ++ (64 :: (List.replicate 0xCEF 0 ++ keyA)))) (m := 0xDFC) (k := 0x1004)
      (q := pkcs1 512 (sha512 (chBodyA b)))
      (by rw [charterA]; conv => lhs; lhs; rw [chBodyA, chTail]
          simp only [List.append_assoc, List.cons_append])
      (by simp only [List.length_append, hh, hk, List.length_replicate, List.length_cons]) h.1 (by omega)

theorem charter_bits (o n hi lo : Nat) (h : 0x21 ≤ o ∧ o + n ≤ 0x110 ∨ 0x111 ≤ o ∧ o + n ≤ 0xE00 ∨ 0x1004 ≤ o ∧ o + n ≤ 0x1E00) :
    chBits (charterA b) o n hi lo = 0 := by
  rw [chBits, charter_zeros b o n h, bitsOf, Nat.zero_div, Nat.zero_mod]

theorem charter_header : charterHeaderOk (charterA b) = true := by
  have h1 : (charterA b).take 4 = [0x4C#8, 0x4D#8, 0x43#8, 0x48#8] ∧ fieldAt (charterA b) 4 2 = 1 ∧ fieldAt (charterA b) 6 2 = 0 := by cases b <;> decide +kernel
  have hl : chLinks (charterA b) = 0 := charter_zeros b _ _ (by omega)
  simp only [charterHeaderOk, h1, chRepair, Bool.and_eq_true, List.all_eq_true, List.mem_range, beq_iff_eq, decide_eq_true_eq]
  refine ⟨⟨⟨⟨⟨⟨⟨⟨⟨⟨⟨trivial, trivial⟩, Nat.zero_le _⟩, ?_⟩, ?_⟩, ?_⟩, ?_⟩, ?_⟩, ?_⟩, ?_⟩, ?_⟩, ?_⟩
  · exact charter_zeros b _ _ (by omega)
  · exact charter_zeros b _ _ (by omega)
  · intro p hp
    have e : chPart p = 0x100 + 64 * p := rfl
    refine ⟨⟨⟨charter_zeros b _ _ (by omega), ?_⟩, ?_⟩, fun i hi => ?_⟩
    · rw [charter_zeros b _ _ (by omega)]; exact Nat.zero_le _
    · rw [charter_zeros b _ _ (by omega)]; exact Nat.zero_le _
    · rw [charter_bits b _ _ _ _ (by omega)]
  · intro n hn
    have e : chVdec n = 0x300 + 16 * n := rfl
    exact ⟨charter_bits b _ _ _ _ (by omega), charter_bits b _ _ _ _ (by omega)⟩
  · intro p hp
    have e : chPair p = 0x400 + 80 * p := rfl
    exact charter_zeros b _ _ (by omega)
  · rw [hl]; decide
  · intro n hn
    rw [charter_zeros b _ _ (by omega)]; rfl
  · exact charter_zeros b _ _ (by omega)
  · exact charter_zeros b _ _ (by omega)

theorem charter_content : (goodAt b e).charterContentOk (charterA b) = true := by
  have h1 : chNpart (charterA b) = 1 ∧ fieldAt (charterA b) 0x1D 1 = 0 ∧ chBits (charterA b) 0x18 2 15 15 = 0 ∧ chShare (charterA b) 0 = 64 ∧ fieldAt (charterA b) 0x1E 2 = 0 := by
    cases b <;> decide +kernel
  have h2 : ∀ i, i < 4 → chRange (charterA b) 0 i = (0, 0) := by
    intro i hi
    rw [chRange, charter_bits b _ _ _ _ (by rw [chPart]; omega), charter_bits b _ _ _ _ (by rw [chPart]; omega)]
  have h3 : chKeys (charterA b) 0 = (0, 0) := by
    rw [chKeys, charter_zeros b _ _ (by rw [chPart]; omega), charter_zeros b _ _ (by rw [chPart]; omega)]
  have h4 : (List.range 16).filter (fun n => chBits (charterA b) (chVdec n) 8 33 33 == 1) = [] := by
    rw [List.filter_eq_nil_iff]
    intro n hn
    rw [List.mem_range] at hn
    rw [charter_bits b _ _ _ _ (by rw [chVdec]; omega)]
    decide
  have h5 : chLinks (charterA b) = 0 := charter_zeros b _ _ (by omega)
  have h6 : ∀ e, chEncoder (charterA b) e = none := fun e => by
    rw [chEncoder, chBits, h1.2.2.2.2, bitsOf, Nat.zero_div, Nat.zero_mod, if_neg (by decide)]
  have h7 : chRepairs (charterA b) = [] := by
    rw [chRepairs, List.filter_eq_nil_iff]
    intro e he
    rw [List.mem_map] at he
    obtain ⟨n, hn, rfl⟩ := he
    rw [List.mem_range] at hn
    rw [chRepair, charter_zeros b _ _ (by omega)]
    decide
  have h8 : (List.range 8).all (fun p => decide (p < 1) || fieldAt (charterA b) (chPart p) 64 == 0) = true := by
    rw [List.all_eq_true]
    intro p hp
    rw [List.mem_range] at hp
    by_cases h : p < 1
    · simp [h]
    · rw [charter_zeros b _ _ (by rw [chPart]; omega)]
      simp
  have h9 : ∀ s : State, s.rangesOk (charterA b) = true := by
    intro s
    simp [State.rangesOk, h1, List.range_succ, h2]
  simp only [State.charterContentOk, h1, h8, h9, h5, h6, h7]
  simp only [sharesOk, keysOk, decodersOk, h1, h4]
  cases b <;> cases e <;> decide

theorem charter_fields :
    fieldAt (charterA b) 8 8 = 5 ∧ chOwnerKey (charterA b) = keyA ∧ fieldAt (charterA b) 0x21 3 = 0 ∧
    fieldAt (charterA b) 0x20 1 = (if b then 1 else 0) ∧ fieldAt (charterA b) 0x18 2 = 9 := by
  cases b <;> decide +kernel

/-- The checks of R370 in terms of the parts that they look at. -/
theorem bundleFault_none {s : State} {f c x : List Byte} {n v : Nat} (h1 : s.field 0 0x1210 31 0 = n) (h2 : imageHeaderOk f n = true)
    (h3 : sha512 (imageKey f) = romFirmwareHash) (h4 : signedBy (imageKey f) (imageBody f) (imageSig f) = true) (h5 : fieldAt f 0x10 1 = v)
    (h6 : ones s.boot.fuses.rollback.toNat 64 = 0) (h7 : charterHeaderOk c = true) (h8 : fieldAt c 8 8 = s.boot.fuses.serial)
    (h9 : s.boot.fuses.enrolled = true ∧ s.boot.fuses.owner = ownerHash c ∨ s.boot.fuses.enrolled = false ∧ s.canEnrol c = true)
    (h11 : signedBy (chOwnerKey c) (chBody c) ((c.drop 0x1E00).take 512) = true) (h12 : s.charterContentOk c = true)
    (h13 : fieldAt c 0x21 3 = 0) (h14 : fieldAt c 0x20 1 = v) (hv : v ≤ 64) (h15 : chainOk x s.boot.fuses.identity = true) :
    s.bundleFault f c x = none := by
  rcases h9 with ⟨h9, h10⟩ | ⟨h9, h10⟩ <;>
    simp [State.bundleFault, firstFault, h1, h2, h3, h4, h5, h6, h7, h8, h9, h10, h11, h12, h13, h14, h15, Nat.not_lt.mpr hv]

theorem fwA_parts : imageBody (fwA b) = fwBody b ∧ imageSig (fwA b) = pkcs1 512 (sha512 (fwBody b)) := by
  rw [imageBody, imageSig, (image_fwA b).2.2.1, fwA]
  exact ⟨List.take_left' (length_fwBody b),
    by rw [List.drop_left' (length_fwBody b), List.take_of_length_le (Nat.le_of_eq (length_pkcs1 (fwBody b)))]⟩
theorem charterA_parts : chBody (charterA b) = chBodyA b ∧ ((charterA b).drop 0x1E00).take 512 = pkcs1 512 (sha512 (chBodyA b)) := by
  rw [chBody, charterA]
  exact ⟨List.take_left' (length_chBodyA b),
    by rw [List.drop_left' (length_chBodyA b), List.take_of_length_le (Nat.le_of_eq (length_pkcs1 (chBodyA b)))]⟩

theorem good_owner : (goodAt b e).boot.fuses.enrolled = true ∧ (goodAt b e).boot.fuses.owner = ownerHash (charterA b) ∨
    (goodAt b e).boot.fuses.enrolled = false ∧ (goodAt b e).canEnrol (charterA b) = true := by
  cases e
  · have h : (goodAt b false).field 0 0x1200 2 2 = 1 := by cases b <;> decide +kernel
    have ho : (goodAt b false).boot.fuses.owner = 0 := rfl
    exact .inr ⟨rfl, by simp [State.canEnrol, h, ho]⟩
  · exact .inl ⟨rfl, rfl⟩

theorem good_fields : (goodAt b e).field 0 0x1210 31 0 = 4096 ∧ ones (goodAt b e).boot.fuses.rollback.toNat 64 = 0 ∧
    (goodAt b e).field 0 0x1210 47 32 = 3219 ∧ (goodAt b e).sourceBad = false ∧ (goodAt b e).boot.link = none := by
  cases b <;> cases e <;> decide +kernel

/-- Whatever module ROM holds: where it holds the two hashes of this key, the bundle passes every check of R370, with the floor at 0 or 1 and
the module enrolled or not. -/
theorem test_bootSteps_passes (hf : romFirmwareHash = sha512 keyA) (hr : romRootHash = sha512 keyA) :
    (goodAt b e).bundleFault (fwA b) (charterA b) chainA = none := by
  refine bundleFault_none (n := 4096) (good_fields b e).1 (image_fwA b).1 ?_ ?_ (image_fwA b).2.2.2.1 (good_fields b e).2.1 (charter_header b) ?_
    (good_owner b e) ?_ (charter_content b e) (charter_fields b).2.2.1 (charter_fields b).2.2.2.1 (by cases b <;> decide) ?_
  · rw [(image_fwA b).2.1, hf]
  · rw [(image_fwA b).2.1, (fwA_parts b).1, (fwA_parts b).2, signed_pkcs1]
  · rw [(charter_fields b).1]; rfl
  · rw [(charter_fields b).2.1, (charterA_parts b).1, (charterA_parts b).2, signed_pkcs1]
  · exact chainOk_chainA hr

theorem fetched_host {s : State} (h : s.boot.link = none) (x : Option (List Byte)) : s.fetched x = some x := by simp [State.fetched, h]

theorem test_bootSteps_bundle :
    (goodAt b e).field 0 0x1210 31 0 = (fwA b).length ∧ (charterA b).length = 8192 ∧ (goodAt b e).field 0 0x1210 47 32 = chainA.length ∧
    (goodAt b e).sourceBad = false ∧ (∀ x, (goodAt b e).fetched x = some x) ∧
    ones (goodAt b e).boot.fuses.rollback.toNat 64 = 0 ∧ fieldAt (charterA b) 0x20 1 = (if b then 1 else 0) := by
  have hf : (fwA b).length = 4096 := by rw [fwA, List.length_append, length_fwBody, length_pkcs1]
  have hc : (charterA b).length = 8192 := by rw [charterA, List.length_append, length_chBodyA, length_pkcs1]
  have hx : chainA.length = 3219 := by decide +kernel
  have g := good_fields b e
  exact ⟨by rw [g.1, hf], hc, by rw [g.2.2.1, hx], g.2.2.2.1, fun x => fetched_host g.2.2.2.2 x, g.2.1, (charter_fields b).2.2.2.1⟩

/-- A device with its boot done, and one held in PERST#. -/
def ranAt : State := { dev with power := { good := true }, boot := { presented := true, rom := true } }
def heldAt0 : State := { dev with power := { good := true }, boot := { rom := true, perst := some 5 } }

theorem test_warmBoots_hypotheses :
    ranAt.power.good = true ∧ ranAt.boot.perst = none ∧ ranAt.boot.rom = true ∧ heldAt0.boot.perst = some 5 ∧ heldAt0.clk.locked = true ∧
    ranAt.clk.locked = true ∧ ranAt.boot.active = false ∧ ({ ranAt with boot := { ranAt.boot with active := true } } : State).boot.active = true ∧
    0x1000 ∉ bootSources ∧ ranAt.boot.presented = true ∧ ranAt.faults.coreFault = false := by decide +kernel

/-- What else a boot may meet: a warm one with a sound source or none, PERST# held since power-up, a storage node that has sent nothing, and a
source whose lengths are out of range. -/
def warmAt (regs : Map W64) : State :=
  let s := bootAt false none regs {}
  { s with boot := { s.boot with cause := 1 } }
theorem test_bootCases_hypotheses :
    (warmAt (sourceRegs 0)).boot.rom = false ∧ (warmAt (sourceRegs 0)).boot.perst = none ∧ (warmAt (sourceRegs 0)).boot.cause ≠ 0 ∧
    (warmAt (sourceRegs 0)).sourceBad = false ∧ (warmAt []).sourceBad = true ∧
    (let s := warmAt []
     let h := { s with clk := { locked := false }, boot := { s.boot with perst := some 5 } }
     h.boot.perst.isSome = true ∧ h.clk.locked = false ∧ h.boot.active = true ∧ h.boot.rom = false ∧ h.power.good = true) ∧
    (let s := bootAt true (some 0) (sourceRegs 0) {}
     ({ s with boot := { s.boot with link := some 22 } } : State).fetched (some []) = none ∧ s.fetched none = some none ∧
     s.fetched (some []) = some (some []) ∧ ([] : List Byte).length ≠ s.field 0 0x1210 31 0 + 8192 + s.field 0 0x1210 47 32) ∧
    (bootAt true none [(0x1000, 2 ^ 12)] {}).field 0 0x1210 31 0 < 4096 ∧ (bootAt true none [(0x1000, 2 ^ 12)] {}).boot.presented = false ∧
    (bootAt true none [(0x1000, 2 ^ 12)] {}).clk.locked = true := by decide +kernel

/-- PERST# that comes while the boot ROM has not started, and its end before the PLL has locked and within or after a boot. -/
theorem test_perst_hypotheses :
    (bootAt false none [] {}).boot.perst = none ∧ (bootAt false none [] {}).power.good = true ∧
    heldAt0.boot.active = false ∧ (let b := { heldAt0.boot with active := true }; b.perst = some 5 ∧ b.active = true) ∧
    (let s := { heldAt0 with clk := { locked := false } }; s.clk.locked = false ∧ s.power.good = true) ∧ 0x1200 ∈ bootSources ∧ 0x1210 ∈ bootSources := by
  decide +kernel

/-- A module whose rails are falling, one whose power history is full, and writes of the power cap that do not count. -/
def fullHist : State :=
  { histAt with boot := { histAt.boot with fuses := { history := (List.range 16).map (fun i => (i, 5)) } } }
theorem test_powerCases_hypotheses :
    ({ offAt [4] false with power := { rails := [0, 3] } } : State).power.rails ≠ [] ∧ ({ offAt [] false with power := { rising := true } } : State).railsOn = true ∧
    fullHist.power.good = true ∧ fullHist.railsOn = true ∧ (offAt [1, 2] true).railsOn = false ∧ ({ histAt with power := { good := true, limited := true } } : State).power.limited = true ∧
    (∀ i, i < 16 → (mget 0 fullHist.boot.fuses.history i : BitVec 8) &&& 0x0F ≠ 0) ∧ powAt.functions.contains 1 = false ∧
    getBits (499#64) 11 0 < 500 ∧ 3000 < getBits (3001#64) 11 0 ∧ powAt.power.good = true := by decide +kernel

/-! ### Registers, trust, attestation and the invariants -/

theorem test_registerWrites_hypotheses :
    0x10408 % 8 = 0 ∧ ranAt.functions.contains 0 = true ∧ plainReg 0x10408 = true ∧ ranAt.mayWrite 0 0x10408 = true ∧
    accessMask 0x10408 .w1c = 0 ∧ accessMask 0x10408 .cnt = 0 ∧ plainReg 0 = true ∧ heldAt0.mayWrite 0 0x10408 = false ∧
    ({ ranAt with regs := [(0x10400, 1)] } : State).mayWrite 0 0x10408 = false ∧
    ranAt.mayWrite 0 0x60000 = true ∧ ranAt.mayWrite 0 0x90000 = true ∧ (0xFF : W64) &&& accessMask 0x90000 .w1c &&& 1 ≠ 0 ∧
    ((0xFF : W64) &&& 0xFFFFFFFFFFFFFFFF#64) &&& 0xFFFFFFFFFFFFFFFF#64 &&& accessMask 0x90000 .w1c &&& 1 ≠ 0 ∧
    ranAt.mayWrite 0 0x20008 = true ∧ (regRow 0x20008).any (fun row => match row.fields.filter (fun g => g.access == .cnt) with
      | [f] => decide (f.hi < 63) && decide (f.lo ≤ f.hi) && decide (1#64 &&& f.mask ≠ 0)
      | _ => false) = true := by decide +kernel

/-- The boot function's port up; an event record written with its interrupt on. -/
def evtAt : State :=
  { ranAt with regs := [(0x10008, 1), (0x60008, 64)], faults := { evtDue := [0], evtIntAt := [(0, 5)] } }

theorem test_eventRing_hypotheses :
    evtAt.functions.contains 0 = true ∧ (13 : W64).getLsbD 0 = true ∧ evtAt.field 0 0x60008 0 0 = 0 ∧ getBits (13 : W64) 5 1 = 6 ∧
    getBits (33 : W64) 5 1 = 16 ∧ getBits (11 : W64) 5 1 = 5 ∧ getBits (35 : W64) 5 1 = 17 ∧ evtAt.faults.evtDue.contains 0 = true ∧
    evtAt.field 0 0x60008 6 6 = 1 ∧ evtAt.reachable 0 = true ∧ mfind evtAt.faults.evtIntAt 0 = some 5 ∧
    getBits (63 : W64) 15 0 < 2 ^ ({ evtAt with regs := [(0x60008, 13)] } : State).field 0 0x60008 5 1 ∧
    evtAt.isOwner 0 = true ∧ evtAt.detWritable = true ∧ ({ evtAt with ctxs := [(0, { phase := .running })] } : State).detWritable = false := by
  decide +kernel

/-- The base point of P-384 (FIPS 186-4), and a point that is none. -/
def pointA : List Byte :=
  beBytes 48 0xAA87CA22BE8B05378EB1C71EF320AD746E1D3B628BA79B9859F741E082542A385502F25DBF55296C3A545E3872760AB7 ++
    beBytes 48 0x3617DE4A96262C6F5D9E98BF9292DC29F8F41DBD289A147CE9DA3113B5F0B8C00A60B1CE1D7E819D7A431D7C90EA0E5F

/-- A device whose responder of function 0 or of the management port has come to a step, with a session. -/
def spdmAt (who : Option Nat) (step : Nat) (x : Option SpdmSession) : State :=
  { ranAt with boot := { ranAt.boot with chain := [1, 2, 3], spdm := [(spdmKey who, { step := step, session := x })] } }

/-- The same point with its coordinates little-endian. -/
def pointL : List Byte := (pointA.take 48).reverse ++ (pointA.drop 48).reverse

theorem test_curve : onCurve beNat pointA = true ∧ onCurve beNat (List.replicate 96 0) = false ∧ onCurve leNat pointL = true ∧ onCurve leNat pointA = false := by
  decide +kernel

theorem test_spdm_hypotheses : ∀ who ∈ [none, some 0],
    (spdmAt who 0 none).spdmRuns who = true ∧ ((spdmAt who 0 none).spdm who).step < 1 ∧ ((spdmAt who 1 none).spdm who).step = 1 ∧
    ((spdmAt who 2 none).spdm who).step = 2 ∧ 3 ≤ ((spdmAt who 3 none).spdm who).step ∧ 2 + 1 ≤ (spdmAt who 3 none).boot.chain.length ∧
    ((spdmAt who 3 (some ⟨5, false⟩)).spdm who).session = some ⟨5, false⟩ ∧
    ((spdmAt who 3 (some ⟨5, true⟩)).spdm who).session = some ⟨5, true⟩ := by decide +kernel

/-- A secure session, the interface in a state of TDISP and a port configured. -/
def tdispAt (st : Nat) : State := { spdmAt (some 0) 3 (some ⟨5, true⟩) with regs := [(0x10010, 1), (0x10018, BitVec.ofNat 64 st)] }

theorem test_tdisp_hypotheses : ∀ st ∈ [0, 1, 2],
    (tdispAt st).spdmRuns (some 0) = true ∧ 3 ≤ ((tdispAt st).spdm (some 0)).step ∧ (tdispAt st).secure (some 0) = true ∧
    (tdispAt st).field 0 0x10018 1 0 = st ∧ (tdispAt st).field 0 0x10008 0 0 = 0 ∧ (tdispAt st).field 0 0x10010 0 0 = 1 := by decide +kernel

/-- An ATTEST or an ATTEST with KEY at the head of queue 0, its context being used and the host reached. -/
def attestState (key : Nat) : State :=
  qAt (descOf 0x60 [(1, key), (8, 2 ^ 64 - 64), (16, 64), (24, 32768)]) (fun s => { s with regs := [(0x10008, 1)], ctxs := [(0, { phase := .empty })] })
def requestA : List Byte := List.replicate 32 7 ++ pointL ++ List.replicate 32 0

theorem test_attest_hypotheses : (∀ key ∈ [0, 1], startsWith (attestState key) (fun d u =>
      decide (d.opcode = 0x60) && u.reachable 0 && u.ctxUsable d.ctxKey && d.reservedOk [(0, 2), (8, 8), (16, 8), (24, 4)] &&
      decide (d.opd 8 8 % 64 = 0) && decide (d.opd 16 8 % 64 = 0) && decide (32768 ≤ d.opd 24 4) && decide (d.opd 1 1 = key)) = true) ∧
    requestA.length = 160 ∧ (requestA.drop 32).take 96 = pointL := by decide +kernel

/-- A step that takes a command: what the invariants speak of. -/
def queued : State := { ranAt with pending := [.readBoot, .warmBoot], boot := { ranAt.boot with fuses := { enrolled := true, slots := [⟨5, true⟩] } } }

theorem test_step_hypotheses :
    Memory.wf queued.mem.cellar = true ∧ Sys2Proof.Machine.step queued = Sys2Proof.Machine.exec .readBoot { queued with pending := [.warmBoot] } ∧
    queued.boot.fuses.enrolled = true ∧ State.reset.pending = [] := ⟨rfl, rfl, rfl, rfl⟩
theorem test_step_next : ∃ t, Sys2Proof.Machine.step queued = .next t ∧ t.pending = [.warmBoot] := ⟨_, rfl, rfl⟩

/-- A write of the high half of a status register, where hardware sets nothing, and one that leaves the counter field of its register out. -/
theorem test_halfWrites_hypotheses :
    0x9000C % 8 = 4 ∧ 0x9000C % 4 = 0 ∧ 0x60004 - 4 = 0x60000 ∧ 3 % 8 ≠ 0 ∧ ((1 : W64) &&& 0xFFFFFFFF#64) &&& 0xFFFFFFFF#64 &&& accessMask 0x90000 .w1c &&& 2 = 0 ∧
    (regRow 0x20008).any (fun row => match row.fields.filter (fun g => g.access == .cnt) with
      | [f] => decide (0xFFFFFFFF00000000#64 &&& f.mask = 0) && decide ((0#64 : W64) &&& (0xFFFFFFFF#64 &&& f.mask) = 0)
      | _ => false) = true ∧ ranAt.mayWrite 0 0x20008 = true ∧ heldAt0.mayWrite 0 0x20008 = false := by decide +kernel

/-- An event ring that is on, a host that is not reached, and one that does not own the device. -/
theorem test_eventRingCases_hypotheses :
    ({ evtAt with regs := [(0x60008, 13)] } : State).field 0 0x60008 0 0 = 1 ∧ ({ evtAt with regs := [(0x60008, 64)] } : State).reachable 0 = false ∧
    ({ evtAt with regs := [(0x60008, 64)] } : State).field 0 0x60008 6 6 = 1 ∧ ({ evtAt with regs := [(0x28, 2)] } : State).isOwner 1 = false ∧
    ({ evtAt with regs := [(0x28, 2)] } : State).functions.contains 1 = true := by decide +kernel

theorem test_spdmCases_hypotheses : ∀ who ∈ [none, some 0],
    ((spdmAt who 3 none).spdm who).session = none ∧ (255 : Nat) ∉ [1, 2, 3, 4, 5, 6, 7, 8, 9] ∧ (spdmAt who 3 none).secure who = false ∧
    (spdmAt who 3 (some ⟨5, false⟩)).secure who = false := by decide +kernel

theorem test_tdispCases_hypotheses :
    (spdmAt (some 0) 3 none).spdmRuns (some 0) = true ∧ (tdispAt 0).field 0 0x10008 0 0 ≠ 1 ∧
    ({ tdispAt 0 with regs := [(0x10008, 1)] } : State).secure (some 0) = true ∧
    ({ tdispAt 0 with regs := [(0x10008, 1)] } : State).field 0 0x10008 0 0 = 1 := by decide +kernel

/-- An ATTEST out of order, one for a context that is not in use, and a host that is not reached. -/
theorem test_attestCases_hypotheses :
    startsWith (qAt (descOf 0x60 [(24, 32767)]) (fun s => { s with ctxs := [(0, { phase := .empty })] })) (fun d u =>
      decide (d.opcode = 0x60) && u.ctxUsable d.ctxKey && decide (d.opd 24 4 < 32768)) = true ∧
    startsWith (qAt (descOf 0x60 [(24, 32768)]) id) (fun d u => decide (d.opcode = 0x60) && !u.ctxUsable d.ctxKey && !u.reachable 0 &&
      d.reservedOk [(0, 2), (8, 8), (16, 8), (24, 4)] && decide (32768 ≤ d.opd 24 4)) = true := by decide +kernel

/-! ### Ill-formed commands -/

/-- Commands of a tile and a slot word. -/
theorem test_wf_words : (
  [fun t w => .mmul t w [], .vaddI, fun t w => .lds t w [], fun t w => .xsend t w [], .loop, .mcfg, .vsubI, .sts,
    fun t w => .xcrate t w [], .dly, .vand, fun t w => .ldv t w [], fun t w => .xhub t w [], .bend, .vor, .stv, .xbind, .align, .vxor,
    fun t w => .asave t w [], .stepm, .vshl, fun t w => .aload t w [], .halt, .vshr, fun t w => .aadd t w [] [], .jmp, .vcmpI, .crd, .br,
    .vsel, fun t w => .cwr t w [], .cfetch, .vminI, .pinset, .vmaxI, .achk, .vabsI, .vmulI, .vbcs, .sadd, .vbcl, .ssub, .vmvs, .sand,
    .vmsv, .sor, .vperm, .sxor, .vnegF, .smul, .vabsF, .saddi, .vminF, .smovi, .vmaxF, .smvlc, .vcmpF, .vaddF, .vsubF, .vmulF, .vfmaF,
    .pcmp, .vcvt, .vmxq, .vexp2, .vrcp, .vrsq, .vexp, .vrmax, .vrmin, .vrsum, .smxMax, .smxSum, .vrng, .sshl, .sshr, .ssra, .pcmpi, .plc,
    .plog] : List (Nat → SlotWord → Instr)).all (fun f => !(f 0 (BitVec.ofNat 48 (0x3F * 2 ^ 42))).wf && !(f 0 0).wf && (List.range 64).all (fun n =>
    !(f 4096 (BitVec.ofNat 48 (n * 2 ^ 42))).wf)) = true := by decide +kernel

/-- Commands of a queue. -/
theorem test_wf_queues : (
  [.opChange, fun fn q => .sqTail fn q 0 true, fun fn q => .cqHead fn q 0 true, fun fn q => .descriptorFetch fn q [], .fetchError, .nop,
    .wait, .waitSatisfied, .waitTimeout, .signalSet, .signalAdd, fun fn q => .ctxCreate fn q [], .ctxDestroy,
    fun fn q => .planLoad fn q [], fun fn q => .weightsLoad fn q [] [] [], fun fn q => .weightsSwapStage fn q [] [], .weightsSwapCommit,
    fun fn q => .weightsSwapStageAndCommit fn q [] [], fun fn q => .weightsSwapDirect fn q [] [], fun fn q => .adapterLoad fn q [] [],
    fun fn q => .adapterReplace fn q [] [], .adapterRemove, fun fn q => .reqAdmit fn q [] [] [] [], fun fn q => .reqFeedTokens fn q [],
    fun fn q => .reqFeedData fn q [], fun fn q => .reqFeedTree fn q [], .reqCancel, .reqCancelAll, fun fn q => .copy fn q [] [],
    .encodeOpen, .encodeFrames, .encodeClose, fun fn q => .domainStart fn q [], .domainStop, .domainResume, fun fn q => .checkpoint fn q [],
    fun fn q => .restore fn q [] [] [], fun fn q => .attest fn q [], fun fn q => .attestKey fn q [], fun fn q => .queueEnable fn q 0 true,
    fun fn q => .queueDisable fn q 0 true] : List (Nat → Nat → Instr)).all (fun f => (f 7 63).wf && !(f 8 63).wf && !(f 7 64).wf) = true := by decide +kernel

/-- Commands of a tile alone. -/
theorem test_wf_ofTile : (
  [.opResultWriteback, .arrayStreamStart, fun t => .arrayVectorCompare t [] none [], .arrayResultWrite, .dlyExpire, .achkStallTimeout,
    fun k => .cellarStreamDone k 0 [], fun k => .meshTransferArrival k 0, fun k => .arrayRowTestDone k [] true, .logitDelivery] : List (Nat → Instr)).all (fun f => (f 4095).wf && !(f 4096).wf) = true := by decide +kernel

/-- Commands of a context. -/
theorem test_wf_ofContext : (
  [fun c => .stagingFetchStart c 0, fun c => .vaultPageRead c 0 [] [], fun c => .shelfZeroed c 0, .extentZeroed, fun c => .planStart c [],
    fun c => .stepCommit c [], .requestDescriptorApply, fun c => .cancelOutputStop c 0, fun c => .cancelEffect c 0, .ctxTeardownDone,
    fun c => .shardAttemptDone c 0 0 [] true, fun c => .shardFirstDeadline c 0, fun c => .loadTimeout c 0, .swapBarrierStart,
    fun c => .swapCommitDone c [], fun c => .adapterSlotTimeout c 0, fun c => .checkpointSnapshot c [], fun c => .checkpointWriteDone c [],
    fun c => .checkpointStageCopyDone c [], fun c => .restoreTimeout c 0] : List (Nat → Instr)).all (fun f => (f 2047).wf && !(f 2048).wf) = true := by decide +kernel

/-- Commands of a function. -/
theorem test_wf_ofFunction : (
  [.dbgHaltReq, .dbgResume, .dbgStep, fun fn => .dbgPeek fn 0, fun fn => .dbgPeekDone fn [] [], fun fn => .beatCfgWrite fn 0 true true,
    fun fn => .waitCycleCheck fn [], .failover, .failoverResume, fun fn => .eventRingEnable fn 0 true, fun fn => .evtHeadWrite fn 0 true,
    .eventInterrupt, fun fn => .detWrite fn 0 true, fun fn => .pwrCapWrite fn 0 true none, fun fn => .tdispMessage fn .lock] : List (Nat → Instr)).all (fun f => (f 7).wf && !(f 8).wf) = true := by decide +kernel

/-- Commands of a port. -/
theorem test_wf_ofPort : (
  [.codewordSend, .nakRepeat, .linkFold, .foldStateReceive, .replayRateInterval, .detectTimeout, .checkMessageSend, .checkMessageReceive,
    .keyingMessageSend, .keyingMessageReceive, .keyingTimeout, fun p => .linkMessageTimeout p 0, .probeReceive, .echoReceive, .measureDone,
    .frameStartCrateReceive, .quarantineCheckSend, fun p => .lanePresenceDetected p true [], .equaliseDone, .codewordLock] : List (Nat → Instr)).all (fun f => (f 23).wf && !(f 24).wf) = true := by decide +kernel

/-- Commands of a slip unit. -/
theorem test_wf_ofUnit : (
  [.debugHalt, .slotBoundary, .landingBeatStart, .beatCfgApply] : List (Nat → Instr)).all (fun f => (f 7).wf && !(f 8).wf) = true := by decide +kernel

/-- Commands of a cellar site. -/
theorem test_wf_ofSite : (
  [fun site => .pageRedirect site 0 [] [], .cellarHot, .doubledRefreshEnd] : List (Nat → Instr)).all (fun f => (f 11).wf && !(f 12).wf) = true := by decide +kernel

/-- Commands to an SPDM responder. -/
theorem test_wf_ofWho : (
  [.getVersion, .getCapabilities, fun who => .negotiateAlgorithms who true, .getDigests, fun who => .getCertificate who 0 0 0,
    fun who => .challenge who 0 [], fun who => .getMeasurements who 0 none, fun who => .keyExchange who [], fun who => .finish who true,
    .endSession] : List (Option Nat → Instr)).all (fun f => (f none).wf && (f (some 7)).wf && !(f (some 8)).wf) = true := by decide +kernel

/-- One command for each other check. -/
theorem test_wf_illFormed : (
  [.tileNop 4096 0 true, .tileNop 0 5 true, .icacheLineFillDone 4096 0 [], .icacheLineFillDone 0 64 [], .displacedMark 2621440,
    .workCyclesDone 64, .earlyGate 64, .stretch 64 0, .stretch 0 5, .codewordReceive 24 (List.replicate 640 0) false [],
    .codewordReceive 0 [0] false [], .crateIngress (.port 24), .crateIngress (.tile 4096), .laneLockLoss 24 0, .laneLockLoss 0 4,
    .laneRelockTimeout 24 0, .laneRelockTimeout 0 4, .laneLockRegained 24 0, .laneLockRegained 0 4, .linkRetrain 8 0, .linkRetrain 0 24,
    .outputRecordPlace 8 0, .outputRecordPlace 0 16, .hatchEnable 8 0 0 true, .hatchEnable 0 16 0 true, .hatchDisable 8 0 0 true,
    .hatchDisable 0 16 0 true, .hatchFlagRefresh 8 0 0 [], .hatchFlagRefresh 0 16 0 [], .draw 2048 0 0 [], .draw 0 16 0 [],
    .encodeFramesRelease 8 0, .encodeFramesRelease 0 32, .encodeFrameDone 8 0 [] [], .encodeFrameDone 0 32 [] [], .tdispExit 8 0,
    .tdispExit 0 4, .counterClear 8 0 0 4 0, .counterClear 0 (2 ^ 24) 0 4 0, .counterClear 0 0 0 7 0, .statusW1c 8 0 0 4 0,
    .statusW1c 0 (2 ^ 24) 0 4 0, .statusW1c 0 0 0 7 0, .registerWrite 8 0 0 4, .registerWrite 0 (2 ^ 24) 0 4, .registerWrite 0 0 0 7,
    .writeBoot (2 ^ 24) 0, .railShort 8 none, .thermalShutdown 3 none, .thermalHigh 0 67 0, .watchdogMiss 0, .watchdogMiss 12, .firmwareMemoryUe 0,
    .firmwareMemoryUe 12, .cxlLinkDown 2, .cxlLinkUp 2 0 0, .ideKeyManagement 8 0, .ideKeyManagement 0 2] : List (Instr)).all (fun i => !i.wf) = true := by decide +kernel
end Sys2Proof.Tests
end

/-!
PROOFS. The family of 00_scope.md: the reset state (R6 to R9), and writes of the setup registers (R437 to R439, R464).
-/
section
namespace Sys2Proof.Machine

/-! ### What the parts of the reset state read as -/

@[simp] theorem State.reg_reset (fn off : Nat) : State.reset.reg fn off = regReset off := rfl
@[simp] theorem State.tile_reset (k : Nat) : State.reset.tile k = Tile.reset := rfl
@[simp] theorem State.unit_reset (u : Nat) : State.reset.unit u = {} := rfl
@[simp] theorem State.ctx_reset (c : Nat) : State.reset.ctx c = {} := rfl

/-- A memory that lists no byte reads zero everywhere. -/
@[simp] theorem readByte_nil (a : Nat) : readByte [] a = 0 := rfl

/-- EN of every QCFG_QCTLn resets to 0 (R361). -/
theorem getBits_regReset_qctl : ∀ q < 64, getBits (regReset (qctl q)) 0 0 = 0 := by decide +kernel

/-- Every queue is off at reset (R328). -/
theorem State.queueOn_reset (fn : Nat) {q : Nat} (hq : q < 64) : State.reset.queueOn fn q = false := by
  simp [State.queueOn, State.field, getBits_regReset_qctl q hq]

/-! ### Where a register beyond the window is kept -/

/-- Every table ends within the 16 MiB window (R6). -/
theorem regRows_within_window : ∀ r ∈ regRows, r.base + r.step * r.count ≤ 2 ^ 24 := by decide +kernel

/-- No table lists an offset beyond the window. -/
theorem regRow_beyond_window {off : Nat} (h : 2 ^ 24 ≤ off) : regRow off = none := by
  rw [regRow, List.find?_eq_none]
  intro r hr hin
  have hend := regRows_within_window r hr
  simp only [Bool.and_eq_true, decide_eq_true_eq] at hin
  omega

/-- An offset one window on has the place of the next function's copy: a place is function × 2^24 + offset. -/
theorem regKey_beyond_window {off : Nat} (r : RegRow) (h : regRow off = some r) (hp : r.perFn = true) (fn : Nat) :
    regKey fn (2 ^ 24 + off) = regKey (fn + 1) off := by
  simp only [regKey, regRow_beyond_window (Nat.le_add_right _ off), h, hp, if_true]
  omega

/-! ### STATUS_W1C -/

/-- STATUS_W1C of a register that the function may write clears and sets its status bits (R439). -/
theorem exec_statusW1c_of_mayWrite {s : State} {fn off size o : Nat} {v d m : W64} (race : W64)
    (ha : regAccess off v size = some (o, d, m)) (hw : s.mayWrite fn o = true) :
    exec (.statusW1c fn off v size race) s = .next (s.clearStatus fn o d m race) := by
  change execStatusW1c fn off v size race s = _
  simp [execStatusW1c, ha, hw]

/-- The module of one partition after its boot, every register at its reset value. -/
def State.presentedAtReset : State := { State.reset with boot := { presented := true } }

theorem State.mayWrite_pwrStatus_presentedAtReset : State.presentedAtReset.mayWrite 0 0x90000 = true := by decide +kernel

/-- Function 0 writes PWR_STATUS while hardware sets bit 0: the bit is set in function 1's copy too (R464). -/
theorem State.reg_pwrStatus_clearStatus :
    State.presentedAtReset.reg 1 0x90000 = 0 ∧
      (State.presentedAtReset.clearStatus 0 0x90000 0 0xFFFFFFFFFFFFFFFF#64 1).reg 1 0x90000 = 1 := by decide +kernel

/-- A register beyond the window reads as the next function's copy of a per-function register, where both reset to 0. -/
theorem State.reg_beyond_window (s : State) {off : Nat} (r : RegRow) (h : regRow off = some r) (hp : r.perFn = true)
    (h0 : regReset off = 0) (fn : Nat) : s.reg fn (2 ^ 24 + off) = s.reg (fn + 1) off := by
  have hr : regReset (2 ^ 24 + off) = 0 := by rw [regReset, regRow_beyond_window (Nat.le_add_right _ off)]
  simp only [State.reg, regKey_beyond_window r h hp, hr, h0]

end Sys2Proof.Machine
end

section
open Sys2Proof Sys2Proof.Machine

/-- Settles O56: every part of the reset state is empty, and reads as its default. -/
theorem resetState : Obligations.ResetState := by
  refine ⟨rfl, rfl, rfl, rfl, State.reg_reset, fun a => readByte_nil a, rfl, fun k => ?_, fun c => ?_, fun fn q _ hq => ?_, fun u => ?_⟩
  · rw [State.tile_reset]
    exact ⟨rfl, rfl, rfl, fun a => readByte_nil a⟩
  · rw [State.ctx_reset]
  · exact State.queueOn_reset fn hq
  · rw [State.unit_reset]
    exact ⟨rfl, rfl, rfl⟩

/-- Refutes O52: the frame of STATUS_W1C speaks of every offset, those beyond the 16 MiB window among them, and offset 2^24 + 0x90000
of function 0 has the place of function 1's copy of PWR_STATUS.  A bit of PWR_STATUS that hardware sets is set in every copy (R464), so
what is kept there changes, where the statement leaves it. -/
theorem not_registerWrites : ¬ Obligations.RegisterWrites := by
  intro h
  obtain ⟨-, hw⟩ := h State.presentedAtReset 0 0x90000 8 0
  obtain ⟨-, -, -, hstatus, -⟩ := hw 0x90000 0 _ (.inl ⟨rfl, rfl, rfl, rfl, rfl⟩)
  have hmay := State.mayWrite_pwrStatus_presentedAtReset
  obtain ⟨t, ht, -, -, hframe⟩ := (hstatus hmay 1).1 (by simp)
  have hexec : exec (.statusW1c 0 0x90000 0 8 1) State.presentedAtReset = _ := exec_statusW1c_of_mayWrite 1 rfl hmay
  obtain rfl : _ = t := Host.Outcome.next.inj (hexec.symm.trans ht)
  obtain ⟨r, hr, hp⟩ : ∃ r, regRow 0x90000 = some r ∧ r.perFn = true := ⟨_, rfl, rfl⟩
  have hkey : regKey 0 (2 ^ 24 + 0x90000) ≠ regKey 0 0x90000 := by
    rw [regKey_beyond_window r hr hp, Ne, regKey_fn r hr hp]
    decide
  have hsame := hframe 0 (2 ^ 24 + 0x90000) hkey
  obtain ⟨hbefore, hafter⟩ := State.reg_pwrStatus_clearStatus
  have h0 : regReset 0x90000 = 0 := hbefore
  rw [State.reg_beyond_window _ r hr hp h0, State.reg_beyond_window _ r hr hp h0, hafter, hbefore] at hsame
  exact absurd hsame (by decide)
end

/-!
PROOFS. The family of 01_machine_organisation.md: the device enters, leaves and resumes a domain, and changes its operating point
(R21, R33, R182, R345, R432).
-/
section
namespace Sys2Proof.Machine

/-- What every step of a fold keeps, the fold keeps. -/
theorem foldl_keeps {σ α β : Type} (g : σ → β) {f : σ → α → σ} (hf : ∀ s a, g (f s a) = g s) (xs : List α) (s : σ) :
    g (xs.foldl f s) = g s := by
  induction xs generalizing s with
  | nil => rfl
  | cons x xs ih => exact (ih _).trans (hf s x)

/-! ### Operations that leave the contexts as they are: the hub's writes and completions -/

@[simp] theorem State.extentFault_ctxs (s : State) (p : Nat) (c : Option Nat) (a : Nat) (b : Bool) :
    (s.extentFault p c a b).ctxs = s.ctxs := by simp [State.extentFault]

@[simp] theorem State.cellarWrite_ctxs (s : State) (a : Nat) (bs : List Byte) (b : Bool) : (s.cellarWrite a bs b).ctxs = s.ctxs := rfl

@[simp] theorem State.setMapEntry_ctxs (s : State) (c i v : Nat) : (s.setMapEntry c i v).ctxs = s.ctxs := rfl

@[simp] theorem State.transferWrite_ctxs (s : State) (c a : Nat) (bs : List Byte) (b : Bool) :
    (s.transferWrite c a bs b).ctxs = s.ctxs := by
  simp only [State.transferWrite]
  split <;> simp

@[simp] theorem State.ctxWrite_ctxs (s : State) (c a : Nat) (bs : List Byte) : (s.ctxWrite c a bs).ctxs = s.ctxs :=
  State.transferWrite_ctxs s c a bs false

@[simp] theorem State.toHost_ctxs (s : State) (fn : Nat) (o : Output) : (s.toHost fn o).ctxs = s.ctxs := by
  simp only [State.toHost]
  split <;> rfl

@[simp] theorem State.entryOut_ctxs (s : State) (fn : Nat) (o : Output) (flag : Nat) : (s.entryOut fn o flag).ctxs = s.ctxs := by
  simp only [State.entryOut]
  split
  · split
    · exact State.toHost_ctxs s fn o
    · exact State.toHost_ctxs s fn o
  · rfl

@[simp] theorem State.complete_ctxs (s : State) (d : DescRef) (st v : Nat) : (s.complete d st v).ctxs = s.ctxs := by
  simp only [State.complete]
  split
  · rfl
  · split <;> split <;> simp

@[simp] theorem State.completeOpen_ctxs (s : State) (d : DescRef) (st : Nat) : (s.completeOpen d st).ctxs = s.ctxs :=
  State.complete_ctxs s d st _

/-! ### Operations that leave the contexts as they are: crates that are sent and transfers that open -/

@[simp] theorem State.discOther_ctxs (s : State) : s.discOther.ctxs = s.ctxs := State.bump_ctxs s 0 0x40020 47

@[simp] theorem State.discCrate_ctxs (s : State) (c : Crate) : (s.discCrate c).ctxs = s.ctxs := by
  simp only [State.discCrate]
  split <;> simp

@[simp] theorem State.unroutable_ctxs (s : State) (c : Crate) : (s.unroutable c).ctxs = s.ctxs := by
  simp [State.unroutable, State.linkStatus]

@[simp] theorem State.enqueue_ctxs (s : State) (p : Nat) (c : Crate) : (s.enqueue p c).ctxs = s.ctxs := by
  simp only [State.enqueue]
  split
  · simp
  · split
    · rfl
    · split <;> rfl

@[simp] theorem State.handOver_ctxs (s : State) (p : Nat) (c : Crate) : (s.handOver p c).ctxs = s.ctxs := by
  have htally : ∀ x : List (Nat × Nat), (if c.tallied then { s with link := { s.link with sent := x } } else s : State).ctxs = s.ctxs :=
    fun x => by split <;> rfl
  simp only [State.handOver, State.enqueue_ctxs]
  split
  · split
    · exact htally _
    · rw [State.enqueue_ctxs, htally]
  · exact htally _

@[simp] theorem State.copiesGone_ctxs (s : State) (gone : List (Nat × Nat × Nat × Crate)) : (s.copiesGone gone).ctxs = s.ctxs :=
  foldl_keeps State.ctxs (fun s g => by dsimp only; split <;> rfl) gone s

@[simp] theorem State.creditBack_ctxs (s : State) (p : Nat) (c : Crate) : (s.creditBack p c).ctxs = s.ctxs := by
  simp only [State.creditBack]
  split
  · split <;> simp
  · split <;> simp

@[simp] theorem State.putIncoming_ctxs (s : State) (i j : Incoming) : (s.putIncoming i j).ctxs = s.ctxs := by
  simp only [State.putIncoming]
  split <;> rfl

@[simp] theorem State.transferData_ctxs (s : State) (i : Incoming) (c : Crate) : (s.transferData i c).ctxs = s.ctxs := by
  simp only [State.transferData]
  split
  · split <;> simp
  · split
    · simp
    · split <;> simp

@[simp] theorem State.dataCrate_ctxs (s : State) (p : Nat) (c : Crate) : (s.dataCrate p c).ctxs = s.ctxs := by
  simp only [State.dataCrate]
  split <;> simp

@[simp] theorem State.openTransfer_ctxs (s : State) (i : Incoming) : (s.openTransfer i).ctxs = s.ctxs := by
  simp only [State.openTransfer]
  rw [foldl_keeps State.ctxs (fun u e => by simp)]

/-- What handing a crate over, discarding one and opening a transfer keep, a read of a storage object keeps. -/
theorem State.storeRead_keeps {β : Type} {g : State → β} (hlink : ∀ (s : State) l, g { s with link := l } = g s)
    (hsend : ∀ (s : State) p c, g (s.handOver p c) = g s) (hdrop : ∀ (s : State) c, g (s.unroutable c) = g s)
    (hopen : ∀ (s : State) i, g (s.openTransfer i) = g s)
    (s : State) (c dev : Nat) (object : List Byte) (off addr len : Nat) (load : Nat × Nat × Nat) (vault : Bool) :
    g (s.storeRead c dev object off addr len load vault) = g s := by
  rw [State.storeRead]
  refine foldl_keeps g (fun u k => (hopen _ _).trans ?_) _ s
  split
  · exact (hsend _ _ _).trans (hlink u _)
  · exact (hdrop _ _).trans (hlink u _)

@[simp] theorem State.storeRead_ctxs (s : State) (c dev : Nat) (object : List Byte) (off addr len : Nat) (load : Nat × Nat × Nat) (vault : Bool) :
    (s.storeRead c dev object off addr len load vault).ctxs = s.ctxs :=
  State.storeRead_keeps (fun _ _ => rfl) State.handOver_ctxs State.unroutable_ctxs State.openTransfer_ctxs s c dev object off addr len load vault

/-! ### Operations that leave the contexts as they are: a plan that stops, and the end of the domain -/

@[simp] theorem State.putTables_ctxs (s : State) (c : Nat) (m : Memory) : (s.putTables c m).ctxs = s.ctxs := rfl

@[simp] theorem State.unbindPlan_ctxs (s : State) (c : Nat) : (s.unbindPlan c).ctxs = s.ctxs := by
  simp only [State.unbindPlan]
  refine foldl_keeps State.ctxs (fun u r => ?_) _ s
  rw [foldl_keeps State.ctxs (fun w k => State.setTile_ctxs w k _)]
  rfl

@[simp] theorem State.leaveDomain_ctxs (s : State) : s.leaveDomain.ctxs = s.ctxs := rfl

end Sys2Proof.Machine
end

section
namespace Sys2Proof.Machine

/-! ### The phase and the requests of a context -/

/-- The phase of a context and its requests: what a plan's stop and a retirement change. -/
def State.life (s : State) (c : Nat) : CtxPhase × Map Req := ((s.ctx c).phase, (s.ctx c).reqs)

theorem State.life_fst (s : State) (c : Nat) : (s.life c).1 = (s.ctx c).phase := rfl
theorem State.life_snd (s : State) (c : Nat) : (s.life c).2 = (s.ctx c).reqs := rfl

theorem State.life_congr {s t : State} (e : t.ctxs = s.ctxs) (c : Nat) : t.life c = s.life c := by
  simp only [State.life, State.ctx_congr e]

theorem State.life_setCtx {s : State} {c : Nat} {x : Ctx} (hp : x.phase = (s.ctx c).phase) (hr : x.reqs = (s.ctx c).reqs) (d : Nat) :
    (s.setCtx c x).life d = s.life d := by
  simp only [State.life, State.ctx_setCtx]
  split
  · subst_vars
    rw [hp, hr]
  · rfl

theorem State.life_modCtx (s : State) (c : Nat) (f : Ctx → Ctx) (d : Nat) (hp : ∀ x, (f x).phase = x.phase := by intro; rfl)
    (hr : ∀ x, (f x).reqs = x.reqs := by intro; rfl) : (s.modCtx c f).life d = s.life d := State.life_setCtx (hp _) (hr _) d

@[simp] theorem State.life_complete (s : State) (d : DescRef) (st v c : Nat) : (s.complete d st v).life c = s.life c :=
  State.life_congr (s.complete_ctxs d st v) c

@[simp] theorem State.life_completeOpen (s : State) (d : DescRef) (st c : Nat) : (s.completeOpen d st).life c = s.life c :=
  State.life_complete s d st _ c

/-! ### Operations that leave it: rows, feeds and cancels -/

@[simp] theorem State.life_setShelf (s : State) (c sh : Nat) (st : Option Bool) (d : Nat) : (s.setShelf c sh st).life d = s.life d :=
  State.life_modCtx s _ _ d

@[simp] theorem State.life_clearEntry (s : State) (c i d : Nat) : (s.clearEntry c i).life d = s.life d := by
  simp only [State.clearEntry]
  split
  · rw [State.life_setShelf, State.life_congr (State.setMapEntry_ctxs _ _ _ _)]
  · rfl

@[simp] theorem State.life_clearRow (s : State) (c row d : Nat) : (s.clearRow c row).life d = s.life d :=
  foldl_keeps (fun u => State.life u d) (fun u _ => State.life_clearEntry u c _ d) _ s

@[simp] theorem State.life_dropFeeds (s : State) (c : Nat) (r : Req) (st v d : Nat) : (s.dropFeeds c r st v).life d = s.life d := by
  simp only [State.dropFeeds]
  rw [foldl_keeps (fun u => State.life u d) (fun u e => by split <;> simp)]
  exact State.life_modCtx s _ _ d

@[simp] theorem State.life_endCancels (s : State) (c n : Nat) (all : Bool) (d : Nat) : (s.endCancels c n all).life d = s.life d := by
  simp only [State.endCancels]
  refine (State.life_modCtx _ _ _ d).trans (foldl_keeps (fun u => State.life u d) (fun u p => ?_) _ s)
  split <;> simp

/-! ### Operations that leave it: swaps and adapters at a boundary -/

@[simp] theorem State.life_swapFinish (s : State) (c : Nat) (w : Swap) (d : Nat) : (s.swapFinish c w).life d = s.life d := by
  rw [State.swapFinish, State.life_complete]
  exact State.life_modCtx s _ _ d

@[simp] theorem State.life_freeAdapters (s : State) (c d : Nat) : (s.freeAdapters c).life d = s.life d :=
  State.life_modCtx s _ _ d

@[simp] theorem Ctx.demote_phase (x : Ctx) (slot : Nat) : (x.demote slot).phase = x.phase := by
  simp only [Ctx.demote]
  split <;> rfl

@[simp] theorem Ctx.demote_reqs (x : Ctx) (slot : Nat) : (x.demote slot).reqs = x.reqs := by
  simp only [Ctx.demote]
  split <;> rfl

@[simp] theorem State.life_makeCurrent (s : State) (c slot : Nat) (e : DescRef) (d : Nat) : (s.makeCurrent c slot e).life d = s.life d := by
  simp only [State.makeCurrent, State.life_complete]
  split <;> exact State.life_setCtx (by simp) (by simp) d

@[simp] theorem State.life_adapterBoundary (s : State) (c d : Nat) : (s.adapterBoundary c).life d = s.life d := by
  simp only [State.adapterBoundary]
  refine (foldl_keeps (fun u => State.life u d) (fun u p => ?_) _ _).trans ((State.life_modCtx _ _ _ d).trans ?_)
  · rw [State.life_complete, State.life_freeAdapters]
    split
    · exact State.life_setCtx (by simp) (by simp) d
    · rfl
  · exact foldl_keeps (fun u => State.life u d) (fun u p => by split <;> simp) _ s

@[simp] theorem State.life_settleStop (s : State) (c d : Nat) : (s.settleStop c).life d = s.life d := by
  simp only [State.settleStop]
  split
  · rfl
  · rw [State.life_adapterBoundary, State.life_freeAdapters]
    split
    · split <;> simp
    · rfl

/-! ### Operations that leave it: adapter loads that begin -/

@[simp] theorem State.life_putLoad (s : State) (c order : Nat) (f : Load → Load) (d : Nat) : (s.putLoad c order f).life d = s.life d :=
  State.life_modCtx s _ _ d

@[simp] theorem State.life_fetchShard (s : State) (c order i d : Nat) : (s.fetchShard c order i).life d = s.life d := by
  simp only [State.fetchShard]
  split
  · rfl
  · split
    · rfl
    · split
      · rw [State.life_congr (State.storeRead_ctxs _ _ _ _ _ _ _ _ _), State.life_putLoad]
      · exact State.life_putLoad _ _ _ _ d

@[simp] theorem State.life_pumpLoad (s : State) (c order d : Nat) : (s.pumpLoad c order).life d = s.life d := by
  simp only [State.pumpLoad]
  split
  · rfl
  · split
    · rfl
    · refine foldl_keeps (fun u => State.life u d) (fun u i => ?_) _ s
      split
      · rfl
      · split
        · split
          · rfl
          · split <;> simp
        · rfl

@[simp] theorem State.life_beginAdapter (s : State) (w : AdapterWait) (slot d : Nat) : (s.beginAdapter w slot).life d = s.life d := by
  simp only [State.beginAdapter]
  split
  · split <;> simp
  · rw [State.life_pumpLoad, State.life_congr (State.ctxWrite_ctxs _ _ _ _)]
    exact State.life_modCtx s _ _ d

@[simp] theorem State.life_serveWaits (s : State) (c d : Nat) : (s.serveWaits c).life d = s.life d := by
  refine foldl_keeps (fun u => State.life u d) (fun u w => ?_) _ s
  split
  · rw [State.life_beginAdapter]
    exact State.life_modCtx u _ _ d
  · rfl

@[simp] theorem State.life_leaveDomain (s : State) (d : Nat) : s.leaveDomain.life d = s.life d := State.life_congr s.leaveDomain_ctxs d

/-! ### A plan that stops -/

@[simp] theorem State.life_unroll (s : State) (c d : Nat) : (s.unroll c).life d = s.life d := by
  simp only [State.unroll]
  split
  · exact (State.life_modCtx _ _ _ d).trans (State.life_congr (State.putTables_ctxs _ _ _) d)
  · rfl

/-- A unit that comes to rest leaves it. -/
theorem State.life_rest (s : State) (p : Prop) [Decidable p] (u : Nat) (y : SlipUnit) (d : Nat) :
    (if p then s.setUnit u y else s).life d = s.life d := by
  split <;> rfl

/-- The phase that a context has once its plan has stopped (R273). -/
def Ctx.stopped (x : Ctx) : CtxPhase :=
  if x.destroying.isSome then .destroying else if x.weights.isSome && x.plan.isSome then .ready else .empty

theorem Ctx.stopped_ne_running (x : Ctx) : x.stopped ≠ .running := by
  simp only [Ctx.stopped]
  split
  · simp
  · split <;> simp

/-- A plan that stops takes its context out of RUNNING and its requests out of the slot tables. -/
theorem State.life_stopPlan (s : State) (c : Nat) :
    (s.stopPlan c).life c = (((s.unroll c).ctx c).stopped, (s.ctx c).reqs.map (fun p => (p.1, { p.2 with live := false }))) := by
  have hreqs : ((s.unroll c).ctx c).reqs = (s.ctx c).reqs := by
    rw [← State.life_snd, State.life_unroll, State.life_snd]
  rw [State.stopPlan]
  refine (State.life_rest _ _ _ _ c).trans ?_
  rw [State.life_settleStop, State.life_endCancels]
  refine (State.life_congr (s := ((s.unroll c).unbindPlan c).setCtx c _) rfl c).trans ?_
  rw [State.life, State.ctx_setCtx_same, ← hreqs, Ctx.stopped]

end Sys2Proof.Machine
end

section
namespace Sys2Proof.Machine

/-! ### Retirement -/

/-- Requests `n` come of `m` by retirement: none is new, each keeps its ID, and one that has retired stays so. -/
def Retiring (m n : Map Req) : Prop :=
  ∀ j r', mfind n j = some r' → ∃ r, mfind m j = some r ∧ r'.id = r.id ∧ (r.phase = .retired → r'.phase = .retired)

theorem Retiring.refl (m : Map Req) : Retiring m m := fun _ r h => ⟨r, h, rfl, id⟩

theorem Retiring.trans {l m n : Map Req} (h : Retiring l m) (g : Retiring m n) : Retiring l n := by
  intro j r'' hr''
  obtain ⟨r', hr', hid', hret'⟩ := g j r'' hr''
  obtain ⟨r, hr, hid, hret⟩ := h j r' hr'
  exact ⟨r, hr, hid'.trans hid, fun e => hret' (hret e)⟩

/-- Every request stands at its ID. -/
def Keyed (m : Map Req) : Prop := ∀ j r, mfind m j = some r → r.id = j

theorem Retiring.keyed {m n : Map Req} (h : Retiring m n) (hk : Keyed m) : Keyed n := by
  intro j r' hr'
  obtain ⟨r, hr, hid, -⟩ := h j r' hr'
  exact hid.trans (hk j r hr)

/-- A request that retires in its place. -/
theorem Retiring.mput {m : Map Req} {j : Nat} {r r' : Req} (h : mfind m j = some r) (hid : r'.id = r.id) (hret : r'.phase = .retired) :
    Retiring m (mput m j r') := by
  intro k x hx
  rw [mfind_mput] at hx
  split at hx
  · obtain rfl := Option.some.inj hx
    subst_vars
    exact ⟨r, h, hid, fun _ => hret⟩
  · exact ⟨x, hx, rfl, id⟩

/-- A request that goes. -/
theorem Retiring.mdel (m : Map Req) (j : Nat) : Retiring m (mdel m j) := by
  intro k x hx
  rw [mfind_mdel] at hx
  split at hx
  · cases hx
  · exact ⟨x, hx, rfl, id⟩

/-- A retired request whose records are all placed goes, and nothing else of the context's phase and requests differs (R309). -/
theorem State.life_settleReq {s : State} {c : Nat} {x : CtxPhase × Map Req} (h : s.life c = x) (id : Nat) :
    (s.settleReq c id).life c = x ∨ (s.settleReq c id).life c = (x.1, mdel x.2 id) := by
  subst h
  rw [State.settleReq]
  split
  · split
    · refine .inr ?_
      have hdel : (s.modCtx c (fun x => { x with reqs := mdel x.reqs id })).life c = ((s.life c).1, mdel (s.life c).2 id) := by
        rw [State.life, State.ctx_modCtx_same, State.life]
      dsimp only
      split
      · rw [State.life_complete]
        exact (State.life_congr rfl c).trans hdel
      · exact (State.life_congr rfl c).trans hdel
    · exact .inl rfl
  · exact .inl rfl

/-- A request as its retirement leaves it (R308). -/
def Req.retired (r : Req) (st v step : Nat) : Req :=
  { r with phase := .retired, slot := none, row := none, reserved := 0, live := false, pin := none, feeds := [], curFeed := none,
           tree := none, inTree := none, cancels := [], finish := some (st, v), effect := some (r.effect.getD step) }

@[simp] theorem State.life_putReq_same (s : State) (c : Nat) (r : Req) :
    (s.putReq c r).life c = ((s.life c).1, mput (s.life c).2 r.id r) := by
  rw [State.putReq, State.life, State.ctx_modCtx_same, State.life]

/-- A request that retires stands retired in its place, or has gone (R308, R309). -/
theorem State.life_retire {s : State} {c id : Nat} {r : Req} (h : s.req c id = some r) (st v step : Nat) :
    (s.retire c id st v step).life c = ((s.life c).1, mput (s.life c).2 r.id (r.retired st v step)) ∨
    (s.retire c id st v step).life c = ((s.life c).1, mdel (mput (s.life c).2 r.id (r.retired st v step)) id) := by
  have hcancels : ∀ (f : DescRef × Nat → Nat) (u : State),
      (r.cancels.foldl (fun u p => if u.cancelOpen c p.1 then u else u.complete p.1 stOk (f p)) u).life c = u.life c :=
    fun f u => foldl_keeps (fun u => State.life u c) (fun u p => by split <;> simp) _ u
  have hput : ∀ (u : State) (a b : Nat), u.life c = s.life c →
      ((u.dropFeeds c r a b).putReq c (r.retired st v step)).life c = ((s.life c).1, mput (s.life c).2 r.id (r.retired st v step)) :=
    fun u a b hu => by rw [State.life_putReq_same, State.life_dropFeeds, hu]; rfl
  rw [State.retire, h]
  dsimp only
  rw [hcancels]
  exact State.life_settleReq (hput _ _ _ (by split <;> simp)) id

/-- The cancel of one request that lives, as a domain's end makes it (R345). -/
def State.cancelLive (c step : Nat) (u : State) (id : Nat) : State :=
  match u.req c id with
  | some r => if r.phase = .retired then u else u.retire c id stCancelled (r.effect.getD step) step
  | none => u

theorem State.phase_cancelLive (c step : Nat) (u : State) (id : Nat) : ((State.cancelLive c step u id).life c).1 = (u.life c).1 := by
  rw [State.cancelLive]
  split
  · next r hr =>
    split
    · rfl
    · rcases State.life_retire hr stCancelled (r.effect.getD step) step with h | h <;> rw [h]
  · rfl

/-- The cancel of a request retires it, and no other one changes otherwise. -/
theorem State.reqs_cancelLive {c : Nat} {u : State} (hk : Keyed (u.life c).2) (step id : Nat) :
    Retiring (u.life c).2 ((State.cancelLive c step u id).life c).2 ∧
      ∀ r, mfind ((State.cancelLive c step u id).life c).2 id = some r → r.phase = .retired := by
  rw [State.cancelLive]
  split
  · next r hr =>
    have hid : r.id = id := hk id r hr
    split
    · next hret =>
      refine ⟨Retiring.refl _, fun x hx => ?_⟩
      obtain rfl : r = x := Option.some.inj (hr.symm.trans hx)
      exact hret
    · rcases State.life_retire hr stCancelled (r.effect.getD step) step with h | h
      · rw [h, hid]
        refine ⟨Retiring.mput hr rfl rfl, fun x hx => ?_⟩
        rw [mfind_mput_same] at hx
        exact Option.some.inj hx ▸ rfl
      · rw [h, hid]
        refine ⟨(Retiring.mput (r' := r.retired _ _ _) hr rfl rfl).trans (Retiring.mdel _ _), fun x hx => ?_⟩
        rw [mfind_mdel_same] at hx
        cases hx
  · next hr =>
    refine ⟨Retiring.refl _, fun x hx => ?_⟩
    cases hr.symm.trans hx

/-- The cancel of a list of requests retires each of them. -/
theorem State.reqs_cancelLives {c : Nat} (step : Nat) (ids : List Nat) {u : State} (hk : Keyed (u.life c).2) :
    Retiring (u.life c).2 ((ids.foldl (State.cancelLive c step) u).life c).2 ∧
      ∀ j ∈ ids, ∀ r, mfind ((ids.foldl (State.cancelLive c step) u).life c).2 j = some r → r.phase = .retired := by
  induction ids generalizing u with
  | nil => exact ⟨Retiring.refl _, by simp⟩
  | cons id ids ih =>
    obtain ⟨hstep, hdone⟩ := State.reqs_cancelLive hk step id
    obtain ⟨hrest, hall⟩ := ih (hstep.keyed hk)
    refine ⟨hstep.trans hrest, fun j hj r hr => ?_⟩
    rcases List.mem_cons.1 hj with rfl | hj
    · obtain ⟨x, hx, -, hret⟩ := hrest j r hr
      exact hret (hdone x hx)
    · exact hall j hj r hr

theorem mem_keys_of_mfind {α : Type} {m : Map α} {j : Nat} {v : α} (h : mfind m j = some v) : j ∈ m.map (·.1) := by
  induction m with
  | nil => cases h
  | cons p m ih =>
    obtain ⟨k, w⟩ := p
    simp only [mfind] at h
    split at h
    · simp_all
    · exact List.mem_cons_of_mem _ (ih h)

theorem mfind_map_values {α β : Type} (f : α → β) (m : Map α) (j : Nat) :
    mfind (m.map (fun p => (p.1, f p.2))) j = (mfind m j).map f := by
  induction m with
  | nil => rfl
  | cons p m ih =>
    simp only [List.map_cons, mfind, ih]
    split <;> rfl

/-- A domain's end cancels every request of its context that lives (R345). -/
theorem State.reqs_cancelAll {c : Nat} (step : Nat) {u : State} (hk : Keyed (u.life c).2) (j : Nat) (r : Req)
    (hr : mfind (((((u.ctx c).reqs.map (·.1)).foldl (State.cancelLive c step) u).life c).2) j = some r) : r.phase = .retired := by
  obtain ⟨hall, hdone⟩ := State.reqs_cancelLives step ((u.ctx c).reqs.map (·.1)) hk
  obtain ⟨x, hx, -, -⟩ := hall j r hr
  exact hdone j (mem_keys_of_mfind hx) r hr

end Sys2Proof.Machine
end

section
namespace Sys2Proof.Machine

theorem any_congr_of_mem {α : Type} {l : List α} {p q : α → Bool} (h : ∀ a ∈ l, p a = q a) : l.any p = l.any q := by
  rw [Bool.eq_iff_iff, List.any_eq_true, List.any_eq_true]
  exact exists_congr fun a => and_congr_right fun ha => by rw [h a ha]

/-! ### What a read under the decoder's findings changes (R201 to R204, R208) -/

/-- `t` differs from `s` in what the hub's reads count and retire: the sites and their page copies, the fault records, the outputs, and
registers from 0x50000 on. -/
structure State.ReadCounts (s t : State) : Prop where
  tiles : t.tiles = s.tiles
  clk : t.clk = s.clk
  cellar : t.mem.cellar = s.mem.cellar
  link : t.link = s.link
  ctxs : t.ctxs = s.ctxs
  dom : t.dom = s.dom
  domNext : t.domNext = s.domNext
  reg : ∀ fn off, off < 0x50000 → t.reg fn off = s.reg fn off

namespace State.ReadCounts

theorem refl (s : State) : State.ReadCounts s s := ⟨rfl, rfl, rfl, rfl, rfl, rfl, rfl, fun _ _ _ => rfl⟩

theorem trans {s t u : State} (h : State.ReadCounts s t) (g : State.ReadCounts t u) : State.ReadCounts s u :=
  ⟨g.tiles.trans h.tiles, g.clk.trans h.clk, g.cellar.trans h.cellar, g.link.trans h.link, g.ctxs.trans h.ctxs, g.dom.trans h.dom,
    g.domNext.trans h.domNext, fun fn off ho => (g.reg fn off ho).trans (h.reg fn off ho)⟩

/-- A fold whose state is a part of what it carries. -/
theorem foldl {σ α : Type} (p : σ → State) {f : σ → α → σ} (hf : ∀ x a, State.ReadCounts (p x) (p (f x a))) (l : List α) (x : σ) :
    State.ReadCounts (p x) (p (l.foldl f x)) := by
  induction l generalizing x with
  | nil => exact refl _
  | cons a l ih => exact (hf x a).trans (ih _)

/-- What records and counts at offsets from 0x50000 on. -/
theorem of_records {l : List Nat} {s t : State} (h : State.Records l s t) (hl : ∀ x ∈ l, 0x50000 ≤ x) : State.ReadCounts s t :=
  ⟨h.tiles, h.clk, by rw [h.mem], h.link, h.ctxs, h.dom, h.domNext,
    fun fn off ho => h.reg fn off (by omega) (fun hm => absurd (hl off hm) (by omega))⟩

theorem field {s t : State} (h : State.ReadCounts s t) (fn off hi lo : Nat) (ho : off < 0x50000) :
    t.field fn off hi lo = s.field fn off hi lo := by simp only [State.field, h.reg fn off ho]

theorem setSite (s : State) (i : Nat) (x : Site) : State.ReadCounts s (s.setSite i x) :=
  ⟨rfl, rfl, rfl, rfl, rfl, rfl, rfl, fun _ _ _ => rfl⟩

theorem setField (s : State) (fn off hi lo n : Nat) (h : 0x50000 ≤ off) (ho : off < 2 ^ 24) : State.ReadCounts s (s.setField fn off hi lo n) :=
  of_records (State.Records.setField s fn off hi lo n ho) (by simpa using h)

theorem bump (s : State) (fn off hi : Nat) (h : 0x50000 ≤ off) (ho : off < 2 ^ 24) : State.ReadCounts s (s.bump fn off hi) :=
  of_records (State.Records.bump s fn off hi ho) (by simpa [ringRegs] using h)

theorem eventAll (s : State) (code : Nat) (pl : Place) (d0 d1 : Nat) : State.ReadCounts s (s.eventAll code pl d0 d1) :=
  of_records (State.Records.eventAll s code pl d0 d1) (by simp [ringRegs])

/-- A bit of MEM_STATUS set in the copies of several functions. -/
theorem memStatuses (s : State) (fns : List Nat) (b : Nat) : State.ReadCounts s (fns.foldl (fun (u : State) f => u.status f 0x50030 b) s) :=
  of_records (State.Records.statuses s fns 0x50030 b (by decide)) (by simp)

/-- Such a bit and its event, raised to every function. -/
theorem report (s : State) (fns : List Nat) (b code d0 d1 : Nat) :
    State.ReadCounts s ((fns.foldl (fun (u : State) f => u.status f 0x50030 b) s).eventAll code .device d0 d1) :=
  (memStatuses s fns b).trans (eventAll _ _ _ _ _)

theorem retirePage (s : State) {site : Nat} (hs : site < 12) (page : Nat) : State.ReadCounts s (s.retirePage site page) := by
  have hfield : ∀ (u : State) (hi lo n : Nat), State.ReadCounts u (u.setField 0 (0x50810 + 32 * site) hi lo n) :=
    fun u hi lo n => setField u 0 _ hi lo n (by omega) (by omega)
  have hcopy : ∀ (u : State) (c : List PageCopy), State.ReadCounts u { u with mem := { u.mem with copies := c } } :=
    fun u c => ⟨rfl, rfl, rfl, rfl, rfl, rfl, rfl, fun _ _ _ => rfl⟩
  rw [State.retirePage]
  split
  · exact refl s
  · dsimp only
    split
    · exact (((((setSite s site _).trans (hcopy _ _)).trans (hfield _ 12 0 _)).trans (report _ _ 3 _ _ _)).trans (hfield _ 13 13 1)).trans
        (report _ _ 4 _ _ _)
    · exact (((setSite s site _).trans (hcopy _ _)).trans (hfield _ 12 0 _)).trans (report _ _ 3 _ _ _)

end State.ReadCounts

/-- The site of a cellar page is one of the twelve (R198, R199). -/
theorem State.placePage_of_site {P : Nat × Nat → Prop} (hP : ∀ site page, site < 12 → P (site, page)) (s : State) (n : Nat) :
    P (s.placePage n) := by
  have hget : ∀ (l : List Nat) (i : Nat), (∀ x ∈ l, x < 12) → l.getD i 0 < 12 := fun l i hl => by
    rw [List.getD_eq_getElem?_getD]
    cases hi : l[i]? with
    | none => simp
    | some x => exact hl x (List.mem_of_getElem? hi)
  have hsites : ∀ x ∈ s.sites, x < 12 := fun x hx => List.mem_range.1 (List.mem_filter.1 hx).1
  rw [State.placePage]
  split
  · exact hP _ _ (hget _ _ hsites)
  · dsimp only
    split <;> exact hP _ _ (hget _ _ (fun x hx => hsites x (List.mem_filter.1 hx).1))

theorem State.placePage_site_lt {s : State} {n site page : Nat} (h : s.placePage n = (site, page)) : site < 12 :=
  State.placePage_of_site (P := fun p => p = (site, page) → site < 12) (fun _ _ hs e => (Prod.mk.inj e).1 ▸ hs) s n h

namespace State.ReadCounts

theorem cellarCorrected (s : State) (a : Nat) : State.ReadCounts s (s.cellarCorrected a) := by
  obtain ⟨⟨site, page⟩, hp⟩ : ∃ p, s.placePage (a / 4096) = p := ⟨_, rfl⟩
  have hs := State.placePage_site_lt hp
  have hbump := bump s 0 (0x50800 + 32 * site) 47 (by omega) (by omega)
  rw [State.cellarCorrected, hp]
  dsimp only
  split
  · exact (hbump.trans (setSite _ _ _)).trans (foldl (fun u => u) (fun u p => retirePage u hs p) _ _)
  · exact hbump.trans (setSite _ _ _)

theorem cellarUncorrectable (s : State) (p a : Nat) : State.ReadCounts s (s.cellarUncorrectable p a) := by
  obtain ⟨⟨site, page⟩, hp⟩ : ∃ p, s.placePage (a / 4096) = p := ⟨_, rfl⟩
  have hs := State.placePage_site_lt hp
  have hbump := bump s 0 (0x50808 + 32 * site) 31 (by omega) (by omega)
  rw [State.cellarUncorrectable, hp]
  exact ((hbump.trans (memStatuses _ [p] 2)).trans (eventAll _ _ _ _ _)).trans (retirePage _ hs _)

theorem decodeRead (s : State) (p a len : Nat) (faults : List SymFault) : State.ReadCounts s (s.decodeRead p a len faults).2.2 := by
  rw [State.decodeRead, State.cellarRead]
  refine foldl (fun (r : List Byte × Bool × State) => r.2.2) (fun r f => ?_) _ (_, _, s)
  dsimp only
  split
  · exact cellarCorrected _ _
  · exact cellarUncorrectable _ _ _

theorem extentFault (s : State) (p : Nat) (c : Option Nat) (a : Nat) (b : Bool) : State.ReadCounts s (s.extentFault p c a b) :=
  (memStatuses s [p] _).trans (of_records (State.Records.event _ _ _ _ _ _) (by simp [ringRegs]))

theorem hubRead (s : State) (c a len : Nat) (faults : List SymFault) : State.ReadCounts s (s.hubRead c a len faults).2.2 := by
  rw [State.hubRead]
  split
  · exact decodeRead s _ _ _ _
  · exact extentFault s _ _ _ _
  · exact extentFault s _ _ _ _

theorem readList (s : State) (c : Nat) (faults : List SymFault) : State.ReadCounts s (s.readList c faults) := by
  rw [State.readList, State.stagingList]
  dsimp only
  split
  · exact refl s
  · refine foldl (fun (r : List StageFetch × State) => r.2) (fun r i => ?_) _ ([], s)
    exact hubRead r.2 _ _ _ _

/-! ### The checks of a start after the reads of its staging list -/

theorem ctx {s t : State} (h : State.ReadCounts s t) (c : Nat) : t.ctx c = s.ctx c := State.ctx_congr h.ctxs c

theorem markBad {s t : State} (h : State.ReadCounts s t) : t.markBad = s.markBad := by simp only [State.markBad, h.clk]

theorem latencyBad {s t : State} (h : State.ReadCounts s t) (p : Plan) : t.latencyBad p = s.latencyBad p := by
  refine any_congr_of_mem fun i hi => ?_
  have := List.mem_range.1 hi
  split
  · rw [h.field 0 _ 31 0 (by omega)]
  · rfl

theorem abiBad {s t : State} (h : State.ReadCounts s t) : t.abiBad = s.abiBad := by
  refine any_congr_of_mem fun i hi => ?_
  have := List.mem_range.1 hi
  rw [State.pstate, State.pstate, h.field 0 (pstat i) 3 0 (by rw [pstat]; omega), State.lport_congr h.link,
    h.field 0 0x38 55 40 (by decide)]

end State.ReadCounts

end Sys2Proof.Machine
end

section
namespace Sys2Proof.Machine

/-! ### A descriptor that starts to execute (R330, R331) -/

/-- A descriptor that starts changes what the host part holds only. -/
theorem State.starts_host {s u : State} {fn q : Nat} {d : DescRef} (h : s.starts fn q d u) : u = { s with host := u.host } := by
  obtain ⟨f, -, hbegin, -⟩ := h
  obtain rfl : _ = u := congrArg Prod.snd hbegin
  rfl

theorem State.starts_dom {s u : State} {fn q : Nat} {d : DescRef} (h : s.starts fn q d u) : u.dom = s.dom := by rw [State.starts_host h]
theorem State.starts_mem {s u : State} {fn q : Nat} {d : DescRef} (h : s.starts fn q d u) : u.mem = s.mem := by rw [State.starts_host h]
theorem State.starts_regs {s u : State} {fn q : Nat} {d : DescRef} (h : s.starts fn q d u) : u.regs = s.regs := by rw [State.starts_host h]
theorem State.starts_clk {s u : State} {fn q : Nat} {d : DescRef} (h : s.starts fn q d u) : u.clk = s.clk := by rw [State.starts_host h]
theorem State.starts_tiles {s u : State} {fn q : Nat} {d : DescRef} (h : s.starts fn q d u) : u.tiles = s.tiles := by rw [State.starts_host h]

theorem opIs_of_opcode {d : DescRef} {n : Nat} (h : d.opcode = n) : opIs n d.bytes = true := beq_iff_eq.2 h

/-- The command that serves a descriptor runs on the state in which it has started. -/
theorem State.execDesc_starts {s u : State} {fn q : Nat} {d : DescRef} (h : s.starts fn q d u) {ok : List Byte → Bool}
    (hok : ok d.bytes = true) (run : DescRef → State → State) : s.execDesc fn q ok run = run d u := by
  obtain ⟨f, hnext, hbegin, hheader⟩ := h
  have hbytes : d.bytes = f.bytes := congrArg (fun p => p.1.bytes) hbegin.symm
  have hserved : s.nextDesc fn q ok = some f := by
    simp only [State.nextDesc, if_true] at hnext ⊢
    split at hnext
    · next hready =>
      rw [if_pos hready]
      split at hnext
      · next g l hw =>
        obtain rfl := Option.some.inj hnext
        rw [if_pos (hbytes ▸ hok)]
      · cases hnext
    · cases hnext
  rw [State.execDesc, hserved]
  dsimp only
  rw [hbegin]
  dsimp only
  rw [hheader]

/-- A start that is scheduled waits in the step of its context (R162). -/
theorem State.ctx_scheduleStart (s : State) (c frame : Nat) (d : Option DescRef) :
    (s.scheduleStart c frame d).ctx c =
      { s.ctx c with step := { (s.ctx c).step with base := (s.ctx c).steps, starting := some (some frame), desc := d } } := by
  rw [State.scheduleStart, State.ctx_of_setUnit, State.ctx_modCtx_same]

/-- The start that a DOMAIN_START schedules at frame START_LOCAL, with its domain and its epoch (R345). -/
def State.scheduleDomain (s : State) (d : DescRef) : State :=
  { s.scheduleStart d.ctxKey (d.opd 16 8) (some d) with
    domNext := some ⟨⟨d.opd 4 3, d.ctxKey, d.opd 8 4, false⟩, d.opd 16 8, (d.opd 24 8 + 2 ^ 64 - d.opd 16 8) % 2 ^ 64⟩
    link := { s.link with nextEpoch := some (d.opd 8 4, d.opd 16 8) } }

theorem State.ctx_scheduleDomain (s : State) (d : DescRef) :
    (s.scheduleDomain d).ctx d.ctxKey =
      { s.ctx d.ctxKey with
        step := { (s.ctx d.ctxKey).step with base := (s.ctx d.ctxKey).steps, starting := some (some (d.opd 16 8)), desc := some d } } :=
  (State.ctx_congr rfl d.ctxKey).trans (s.ctx_scheduleStart d.ctxKey (d.opd 16 8) (some d))

section
variable {s u : State} {fn q : Nat} {d : DescRef}

/-! ### DOMAIN_START (R345) -/

theorem exec_domainStart_refused (h : s.starts fn q d u) (ho : d.opcode = 0x40)
    (hr : d.reservedOk [(0, 1), (4, 3), (8, 4), (16, 20)] = true) (hbad : u.domainBad d = true) (faults : List SymFault) :
    exec (.domainStart fn q faults) s = .next (u.complete d 0x05 0x18) := by
  change execDomainStart fn q faults s = _
  rw [execDomainStart, State.execDesc_starts h (opIs_of_opcode ho)]
  simp only [hr, hbad, Bool.not_true, Bool.false_eq_true, reduceIte]
  rfl

/-- What DOMAIN_START does once its preconditions and the checks of its plan pass: a bad mark or a link that does not match completes
it, else the start is scheduled. -/
theorem exec_domainStart_checked (h : s.starts fn q d u) (ho : d.opcode = 0x40)
    (hr : d.reservedOk [(0, 1), (4, 3), (8, 4), (16, 20)] = true) (hbad : u.domainBad d = false) {faults : List SymFault}
    (hf : u.startFaults d.ctxKey true faults = []) {p : Plan} (hp : (u.ctx d.ctxKey).plan = some p) (hm : u.markBad = false) :
    exec (.domainStart fn q faults) s = .next (if u.latencyBad p || u.abiBad then (u.readList d.ctxKey faults).completeOpen d stLinkMismatch
      else (u.readList d.ctxKey faults).scheduleDomain d) := by
  have hread := State.ReadCounts.readList u d.ctxKey faults
  change execDomainStart fn q faults s = _
  rw [execDomainStart, State.execDesc_starts h (opIs_of_opcode ho)]
  simp only [hr, hbad, hf, lowest, hread.ctx, hp, hread.markBad, hm, hread.latencyBad, hread.abiBad, Bool.not_true, Bool.false_eq_true, reduceIte]
  rfl

/-- DOMAIN_START schedules the plan at frame START_LOCAL. -/
theorem exec_domainStart_scheduled (h : s.starts fn q d u) (ho : d.opcode = 0x40)
    (hr : d.reservedOk [(0, 1), (4, 3), (8, 4), (16, 20)] = true) (hbad : u.domainBad d = false) {faults : List SymFault}
    (hf : u.startFaults d.ctxKey true faults = []) {p : Plan} (hp : (u.ctx d.ctxKey).plan = some p) (hm : u.markBad = false)
    (hl : u.latencyBad p = false) (ha : u.abiBad = false) :
    ∃ t : State, exec (.domainStart fn q faults) s = .next t ∧
      t.domNext = some ⟨⟨d.opd 4 3, d.ctxKey, d.opd 8 4, false⟩, d.opd 16 8, (d.opd 24 8 + 2 ^ 64 - d.opd 16 8) % 2 ^ 64⟩ ∧
      t.link.nextEpoch = some (d.opd 8 4, d.opd 16 8) ∧ (t.ctx d.ctxKey).step.starting = some (some (d.opd 16 8)) ∧
      (t.ctx d.ctxKey).step.base = (u.ctx d.ctxKey).steps ∧ (t.ctx d.ctxKey).step.desc = some d ∧ t.dom = s.dom ∧
      t.mem.cellar = s.mem.cellar ∧ t.tiles = s.tiles := by
  have hread := State.ReadCounts.readList u d.ctxKey faults
  rw [exec_domainStart_checked h ho hr hbad hf hp hm, if_neg (by simp [hl, ha])]
  refine ⟨_, rfl, rfl, rfl, ?_⟩
  rw [State.ctx_scheduleDomain, hread.ctx]
  exact ⟨rfl, rfl, rfl, hread.dom.trans (State.starts_dom h), hread.cellar.trans (congrArg MemState.cellar (State.starts_mem h)),
    hread.tiles.trans (State.starts_tiles h)⟩

/-- A link that is too slow, or a neighbour of another PLAN_ABI, completes DOMAIN_START with LINK_MISMATCH (R177, R258). -/
theorem exec_domainStart_mismatch (h : s.starts fn q d u) (ho : d.opcode = 0x40)
    (hr : d.reservedOk [(0, 1), (4, 3), (8, 4), (16, 20)] = true) (hbad : u.domainBad d = false) {faults : List SymFault}
    (hf : u.startFaults d.ctxKey true faults = []) {p : Plan} (hp : (u.ctx d.ctxKey).plan = some p) (hm : u.markBad = false)
    (hl : u.latencyBad p = true ∨ u.abiBad = true) :
    ∃ r, exec (.domainStart fn q faults) s = .next ((u.readList d.ctxKey faults).complete d 0x11 r) := by
  rw [exec_domainStart_checked h ho hr hbad hf hp hm, if_pos (by simpa using hl)]
  exact ⟨_, rfl⟩

/-! ### DOMAIN_STOP (R345) -/

theorem exec_domainStop_refused (h : s.starts fn q d u) (ho : d.opcode = 0x41) (hr : d.reservedOk [(0, 1), (40, 8)] = true)
    (hbad : ∀ m, u.dom = some m → m.ctx ≠ d.ctxKey) : exec (.domainStop fn q) s = .next (u.complete d 0x05 0x18) := by
  change execDomainStop fn q s = _
  rw [execDomainStop, State.execDesc_starts h (opIs_of_opcode ho)]
  simp only [hr, Bool.not_true, Bool.false_eq_true, reduceIte]
  cases hdom : u.dom with
  | none => rfl
  | some m =>
    simp only [if_pos (hbad m hdom)]
    rfl

/-- DOMAIN_STOP fixes the end mark at which the plan stops (R345; log entry 40). -/
theorem exec_domainStop_fixes (h : s.starts fn q d u) (ho : d.opcode = 0x41) (hr : d.reservedOk [(0, 1), (40, 8)] = true)
    {m : Domain} (hdom : u.dom = some m) (hc : m.ctx = d.ctxKey) :
    ∃ t : State, exec (.domainStop fn q) s = .next t ∧
      (t.ctx d.ctxKey).stopAt = some (if d.opd 40 8 ≤ (u.ctx d.ctxKey).steps then (u.ctx d.ctxKey).steps else d.opd 40 8 - 1) ∧
      t.dom = s.dom ∧ t.mem = s.mem ∧ t.tiles = s.tiles ∧ t.regs = s.regs := by
  change ∃ t, execDomainStop fn q s = _ ∧ _
  rw [execDomainStop, State.execDesc_starts h (opIs_of_opcode ho)]
  simp only [hr, hdom, hc, ne_eq, not_true_eq_false, Bool.not_true, Bool.false_eq_true, reduceIte]
  have hsame : u.dom = s.dom ∧ u.mem = s.mem ∧ u.tiles = s.tiles ∧ u.regs = s.regs :=
    ⟨State.starts_dom h, State.starts_mem h, State.starts_tiles h, State.starts_regs h⟩
  exact ⟨_, rfl, congrArg Ctx.stopAt (State.ctx_modCtx_same _ _ _), hsame⟩

/-! ### DOMAIN_RESUME (R432) -/

theorem exec_domainResume_refused (h : s.starts fn q d u) (ho : d.opcode = 0x42)
    (hr : d.reservedOk [(0, 1), (8, 4), (16, 16), (40, 8)] = true) (hbad : u.resumeBad d = true) :
    exec (.domainResume fn q) s = .next (u.complete d 0x05 0x18) := by
  change execDomainResume fn q s = _
  rw [execDomainResume, State.execDesc_starts h (opIs_of_opcode ho)]
  simp only [hr, hbad, Bool.not_true, Bool.false_eq_true, reduceIte]
  rfl

/-- Where DOMAIN_RESUME is not refused, the device waits in recovery with the descriptor's context (R432). -/
theorem State.recovers_of_resumeBad (hbad : u.resumeBad d = false) : ∃ m, u.dom = some m ∧ m.recovery = true ∧ m.ctx = d.ctxKey := by
  simp only [State.resumeBad, Bool.or_eq_false_iff] at hbad
  obtain ⟨⟨⟨hdom, -⟩, -⟩, -⟩ := hbad
  cases hm : u.dom with
  | none => simp [hm] at hdom
  | some m => exact ⟨m, rfl, by simpa [hm] using hdom⟩

/-- DOMAIN_RESUME ends the recovery and sets the step up for frame START_LOCAL. -/
theorem exec_domainResume_sets (h : s.starts fn q d u) (ho : d.opcode = 0x42)
    (hr : d.reservedOk [(0, 1), (8, 4), (16, 16), (40, 8)] = true) (hbad : u.resumeBad d = false)
    (hw : (u.ctx d.ctxKey).weights ≠ none) {p : Plan} (hp : (u.ctx d.ctxKey).plan = some p) (hfence : u.usesFenced d.ctxKey = false)
    (hm : u.markBad = false) (hl : u.latencyBad p = false) (ha : u.abiBad = false) :
    ∃ t : State, ∃ m, exec (.domainResume fn q) s = .next t ∧ t.dom = some m ∧ m.recovery = false ∧
      m.epoch = d.opd 8 4 ∧ m.ctx = d.ctxKey ∧ t.link.nextEpoch = some (d.opd 8 4, d.opd 16 8) ∧
      t.clk.offset = (d.opd 24 8 + 2 ^ 64 - d.opd 16 8) % 2 ^ 64 ∧
      (t.ctx d.ctxKey).step.base = d.opd 40 8 ∧ (t.ctx d.ctxKey).step.starting = some (some (d.opd 16 8)) ∧
      (t.ctx d.ctxKey).step.repeat_ = (d.opd 40 8 == (u.ctx d.ctxKey).lastCommit) ∧ t.mem = s.mem ∧ t.tiles = s.tiles := by
  obtain ⟨m, hdom, -, hc⟩ := State.recovers_of_resumeBad hbad
  have hweights : (u.ctx d.ctxKey).weights.isNone = false := Option.isNone_eq_false_iff.2 (Option.isSome_iff_ne_none.2 hw)
  change ∃ t, ∃ m, execDomainResume fn q s = _ ∧ _
  rw [execDomainResume, State.execDesc_starts h (opIs_of_opcode ho)]
  simp only [hr, hbad, hweights, hp, hfence, hm, hl, ha, Bool.or_self, Bool.not_true, Bool.false_eq_true, reduceIte]
  have hmem := State.starts_mem h
  have htiles := State.starts_tiles h
  refine ⟨_, { m with recovery := false, epoch := d.opd 8 4 }, rfl, congrArg (Option.map _) hdom, rfl, rfl, hc, rfl, rfl, ?_⟩
  rw [State.ctx_of_setUnit, State.ctx_modStep_same]
  exact ⟨rfl, rfl, rfl, hmem, htiles⟩

/-! ### OP_CHANGE (R182, R343) -/

/-- OP_CHANGE waits for its frame. -/
theorem exec_opChange_waits (h : s.starts fn q d u) (ho : d.opcode = 0x70) (hr : d.reservedOk [(0, 9)] = true) (hop : d.opd 8 1 ≤ 3)
    (hpend : u.clk.opPend = none) (hframe : d.frame + 2 ≤ d.opd 0 8) (howner : u.domainMode = true ∨ u.clk.opOwner = fn) :
    ∃ t : State, exec (.opChange fn q) s = .next t ∧ t.clk.opPend = some ⟨d.opd 0 8, d.opd 8 1, fn, q, d.order⟩ ∧
      t.clk.op = s.clk.op ∧ t.mem = s.mem ∧ t.tiles = s.tiles := by
  have howner' : (!u.domainMode && u.clk.opOwner != fn) = false := by
    rcases howner with hd | hf
    · simp [hd]
    · simp [hf]
  change ∃ t, execOpChange fn q s = _ ∧ _
  rw [execOpChange, State.execDesc_starts h (opIs_of_opcode ho)]
  simp only [State.check, reasons, hr, hpend, howner', decide_eq_false (show ¬ 3 < d.opd 8 1 by omega),
    decide_eq_false (show ¬ d.opd 0 8 < d.frame + 2 by omega), Bool.not_true, Bool.or_self, Option.isSome_none, List.filter, List.map_nil,
    lowest]
  have hmem := State.starts_mem h
  have htiles := State.starts_tiles h
  have hclk : u.clk.op = s.clk.op := congrArg Clock.op (State.starts_clk h)
  exact ⟨_, rfl, rfl, hclk, hmem, htiles⟩

end

/-! ### DOMAIN_STOP_EFFECT (R33, R345) -/

/-- The plan of a domain that ends has stopped: it stops now where it still runs, which it does in recovery only. -/
def State.haltDomain (s : State) (c : Nat) : State := if (s.ctx c).phase == .running then s.stopPlan c else s

/-- The step that the retirements at a domain's end name: the failed one in recovery, else the last committed one. -/
def State.lastStep (s : State) (m : Domain) : Nat := if m.recovery then (s.reg 0 0x60038).toNat else (s.ctx m.ctx).lastCommit

/-- The device once a domain has ended, its DOMAIN_STOPs not yet completed. -/
def State.endDomain (s : State) (m : Domain) : State :=
  let s1 := s.haltDomain m.ctx
  let s2 := ((s1.ctx m.ctx).reqs.map (·.1)).foldl (State.cancelLive m.ctx (s.lastStep m)) s1
  ((s2.settleStop m.ctx).serveWaits m.ctx).leaveDomain.modCtx m.ctx (fun x => { x with stopAt := none })

theorem exec_domainStopEffect {s : State} {m : Domain} (hdom : s.dom = some m) (hstops : s.domainStops ≠ [])
    (hend : (s.ctx m.ctx).phase ≠ .running ∨ m.recovery = true) :
    exec .domainStopEffect s =
      .next (s.domainStops.foldl (fun (u : State) e => u.complete e 0x00 (s.ctx m.ctx).lastCommit) (s.endDomain m)) := by
  have hgo : ((s.ctx m.ctx).phase == .running && !m.recovery) = false := by
    rcases hend with hp | hrec
    · simp [hp]
    · simp [hrec]
  change execDomainStopEffect s = _
  rw [execDomainStopEffect, hdom]
  cases hds : s.domainStops with
  | nil => exact absurd hds hstops
  | cons d ds =>
    simp only [hgo, Bool.false_eq_true, reduceIte]
    rfl

theorem Keyed.map {m : Map Req} (hk : Keyed m) {f : Req → Req} (hf : ∀ r, (f r).id = r.id) : Keyed (m.map (fun p => (p.1, f p.2))) := by
  intro j r hr
  rw [mfind_map_values f] at hr
  obtain ⟨x, hx, rfl⟩ := Option.map_eq_some_iff.1 hr
  exact (hf x).trans (hk j x hx)

theorem State.phase_haltDomain (s : State) (c : Nat) : ((s.haltDomain c).life c).1 ≠ .running := by
  rw [State.haltDomain]
  split
  · rw [State.life_stopPlan]
    exact Ctx.stopped_ne_running _
  · next hp => exact fun e => hp (beq_iff_eq.2 e)

theorem State.keyed_haltDomain {s : State} {c : Nat} (hk : Keyed (s.life c).2) : Keyed ((s.haltDomain c).life c).2 := by
  rw [State.haltDomain]
  split
  · rw [State.life_stopPlan]
    exact hk.map (f := fun r => { r with live := false }) (fun _ => rfl)
  · exact hk

/-- The phase and the requests that a domain's end leaves are those after its cancels. -/
theorem State.life_endDomain (s : State) (m : Domain) :
    (s.endDomain m).life m.ctx =
      ((((s.haltDomain m.ctx).ctx m.ctx).reqs.map (·.1)).foldl (State.cancelLive m.ctx (s.lastStep m)) (s.haltDomain m.ctx)).life m.ctx := by
  rw [State.endDomain]
  refine (State.life_modCtx _ _ _ _).trans ?_
  rw [State.life_leaveDomain, State.life_serveWaits, State.life_settleStop]

theorem State.phase_endDomain (s : State) (m : Domain) : ((s.endDomain m).ctx m.ctx).phase ≠ .running := by
  rw [← State.life_fst, State.life_endDomain, foldl_keeps (fun u => (State.life u m.ctx).1) (State.phase_cancelLive m.ctx _)]
  exact s.phase_haltDomain m.ctx

theorem State.reqs_endDomain {s : State} {m : Domain} (hk : Keyed (s.ctx m.ctx).reqs) (j : Nat) (r : Req)
    (hr : mfind ((s.endDomain m).ctx m.ctx).reqs j = some r) : r.phase = .retired := by
  rw [← State.life_snd, State.life_endDomain] at hr
  exact State.reqs_cancelAll _ (State.keyed_haltDomain hk) j r hr

/-- The registers that show the domain read as those of a partitioned device (R33; log entry 63). -/
theorem State.fields_leaveDomain (s : State) :
    s.leaveDomain.field 0 0x20 40 40 = 0 ∧ s.leaveDomain.field 0 0x20 39 16 = 0 ∧ s.leaveDomain.field 0 0x60028 0 0 = 0 := by
  have hlast : ∀ u : State, u.field 0 0x20 40 40 = 0 → u.field 0 0x20 39 16 = 0 →
      (u.setField 0 0x60028 0 0 0).field 0 0x20 40 40 = 0 ∧ (u.setField 0 0x60028 0 0 0).field 0 0x20 39 16 = 0 ∧
        (u.setField 0 0x60028 0 0 0).field 0 0x60028 0 0 = 0 := fun u hvalid hid => by
    rw [State.field_setField_other (by decide) (by decide) (by decide), State.field_setField_other (by decide) (by decide) (by decide),
      State.field_setField _ _ _ _ _ _ (by decide)]
    exact ⟨hvalid, hid, rfl⟩
  have hdevice : ∀ u : State, ((u.setField 0 0x20 40 40 0).setField 0 0x20 39 16 0).field 0 0x20 40 40 = 0 ∧
      ((u.setField 0 0x20 40 40 0).setField 0 0x20 39 16 0).field 0 0x20 39 16 = 0 := fun u => by
    rw [State.field_setField_bits _ _ _ _ _ _ _ _ (by decide) (by decide), State.field_setField _ _ _ _ _ _ (by decide),
      State.field_setField _ _ _ _ _ _ (by decide)]
    exact ⟨rfl, rfl⟩
  rw [State.leaveDomain]
  exact hlast _ (hdevice _).1 (hdevice _).2

/-- The device is in partitioned mode once its domain has ended (R21, R33, R182). -/
theorem State.partitioned_endDomain (s : State) (m : Domain) :
    (s.endDomain m).dom = none ∧ (s.endDomain m).clk.offset = 0 ∧ ((s.endDomain m).ctx m.ctx).stopAt = none ∧
      (s.endDomain m).field 0 0x20 40 40 = 0 ∧ (s.endDomain m).field 0 0x20 39 16 = 0 ∧ (s.endDomain m).field 0 0x60028 0 0 = 0 := by
  rw [State.endDomain]
  refine ⟨rfl, rfl, ?_, ?_⟩
  · rw [State.ctx_modCtx_same]
  · simp only [State.field_of_modCtx]
    exact State.fields_leaveDomain _

end Sys2Proof.Machine
end

section
open Sys2Proof Sys2Proof.Machine

/-- Settles O38: each descriptor by what its command does once the descriptor has started, and the end of the domain by the retirement of
every request of its context. -/
theorem domainCommands : Obligations.DomainCommands := by
  refine ⟨fun s u fn q d h _ => ⟨fun ho hr faults => ⟨fun hbad => ?_, fun p hbad hf hp hm hl ha => ?_, fun p hbad hf hp hm hl => ?_⟩,
    fun ho hr => ⟨fun hbad => ?_, fun m hdom hc => ?_⟩, fun ho hr => ⟨fun hbad => ?_, fun p hbad hw hp hfence hm hl ha => ?_⟩,
    fun ho hr hop hpend hframe howner => ?_⟩, fun s m hdom hstops hend => ?_⟩
  · exact exec_domainStart_refused h ho hr hbad faults
  · exact exec_domainStart_scheduled h ho hr hbad hf hp hm hl ha
  · exact exec_domainStart_mismatch h ho hr hbad hf hp hm hl
  · exact exec_domainStop_refused h ho hr hbad
  · exact exec_domainStop_fixes h ho hr hdom hc
  · exact exec_domainResume_refused h ho hr hbad
  · exact exec_domainResume_sets h ho hr hbad hw hp hfence hm hl ha
  · exact exec_opChange_waits h ho hr hop hpend hframe howner
  · obtain ⟨hdom', hoffset, hstop, hfields⟩ := s.partitioned_endDomain m
    obtain ⟨hvalid, hid, hrecovery⟩ := hfields
    exact ⟨s.endDomain m, exec_domainStopEffect hdom hstops hend, hdom', hoffset, hstop, s.phase_endDomain m, hvalid, hid, hrecovery,
      State.reqs_endDomain⟩
end

/-!
PROOFS. The family of 06_memory_tiers.md: shelves and extents that are zeroed, and the staging of vault pages (R207, R218, R222, R224,
R270, R283).
-/
section
namespace Sys2Proof.Machine

/-! ### Reading a span that is zeroed or written (R207, R208, R218) -/

/-- A table that keeps the entries of some keys reads as before at those, and lists nothing elsewhere. -/
theorem mfind_filter_keys {α : Type} (p : Nat → Bool) (m : Map α) (b : Nat) :
    mfind (m.filter (fun x => p x.1)) b = if p b = true then mfind m b else none := by
  induction m with
  | nil => rw [List.filter_nil, mfind_nil, ite_self]
  | cons x r ih =>
    obtain ⟨k, v⟩ := x
    rw [List.filter_cons, mfind]
    dsimp only
    split
    · next hk =>
      rw [mfind, ih]
      split
      · next hb => rw [hb, if_pos hk]
      · rfl
    · next hk =>
      rw [ih]
      split
      · next hb => rw [if_neg (show b ≠ k from fun e => hk (e ▸ hb))]
      · rfl

theorem State.readByte_cellarZero (s : State) (a len x : Nat) :
    readByte (s.cellarZero a len).mem.cellar x = if a ≤ x ∧ x < a + len then 0 else readByte s.mem.cellar x := by
  have hkeep : (decide (x < a) || decide (a + len ≤ x)) = true ↔ ¬ (a ≤ x ∧ x < a + len) := by
    rw [Bool.or_eq_true, decide_eq_true_eq, decide_eq_true_eq]
    omega
  rw [readByte, State.cellarZero, mget, mfind_filter_keys (fun k => decide (k < a) || decide (a + len ≤ k))]
  by_cases hin : a ≤ x ∧ x < a + len
  · rw [if_pos hin, if_neg (fun h => hkeep.1 h hin)]
    rfl
  · rw [if_neg hin, if_pos (hkeep.2 hin)]
    rfl

theorem State.readByte_cellarWrite (s : State) (a : Nat) (bs : List Byte) (poison : Bool) (x : Nat) :
    readByte (s.cellarWrite a bs poison).mem.cellar x =
      if a ≤ x ∧ x < a + bs.length then bs.getD (x - a) 0 else readByte s.mem.cellar x := readByte_writeBytes _ _ _ _

/-- A write that passes the extent check is made at the address the check answers (R208). -/
theorem State.ctxWrite_of_checkExtent {s : State} {c a ad : Nat} {bs : List Byte} (h : s.checkExtent (some c) a bs.length = .ok ad) :
    s.ctxWrite c a bs = s.cellarWrite ad bs false := by
  rw [State.ctxWrite, h]

/-! ### A completion: what it leaves as it is, and the descriptors that execute after it (R332) -/

section
variable {β : Type} {g : State → β} (hreg : ∀ (s : State) fn off v, g (s.setReg fn off v) = g s)
  (hemit : ∀ (s : State) o, g (s.emit o) = g s) (hhost : ∀ (s : State) h, g { s with host := h } = g s)
include hemit hhost

/-- What outputs and the host part do not show, a write towards a host keeps. -/
theorem State.toHost_keeps (s : State) (fn : Nat) (o : Output) : g (s.toHost fn o) = g s := by
  rw [State.toHost]
  split
  · exact (hhost _ _).trans (hemit s o)
  · exact hhost s _

include hreg

theorem State.entryOut_keeps (s : State) (fn : Nat) (o : Output) (flag : Nat) : g (s.entryOut fn o flag) = g s := by
  have hsent := State.toHost_keeps hemit hhost s fn o
  rw [State.entryOut]
  split
  · dsimp only
    split
    · exact (hhost _ _).trans ((hreg _ _ _ _).trans hsent)
    · exact hsent
  · exact hhost s _

/-- What registers, outputs and the host part do not show, a completion keeps. -/
theorem State.complete_keeps (s : State) (d : DescRef) (st v : Nat) : g (s.complete d st v) = g s := by
  have hfield : ∀ (u : State) fn off hi lo n, g (u.setField fn off hi lo n) = g u := fun u fn off hi lo n => hreg u fn off _
  rw [State.complete]
  split
  · rfl
  · have htail : ∀ (x : Queue) n, g ((s.setQueue d.fn d.queue x).setField d.fn (qpos d.queue) 47 32 n) = g s := fun x n =>
      (hfield _ _ _ _ _ _).trans (hhost s _)
    have hphase : ∀ (b : Prop) [Decidable b] (u : State) n, g u = g s →
        g (if b then u.setField d.fn (qpos d.queue) 48 48 n else u) = g s := fun b _ u n hu => by
      split
      · exact (hfield _ _ _ _ _ _).trans hu
      · exact hu
    dsimp only
    split
    · exact (State.toHost_keeps hemit hhost _ _ _).trans ((State.entryOut_keeps hreg hemit hhost _ _ _ _).trans (hphase _ _ _ (htail _ _)))
    · exact (State.entryOut_keeps hreg hemit hhost _ _ _ _).trans (hphase _ _ _ (htail _ _))

end

@[simp] theorem State.complete_mem (s : State) (d : DescRef) (st v : Nat) : (s.complete d st v).mem = s.mem :=
  State.complete_keeps (g := State.mem) (fun _ _ _ _ => rfl) (fun _ _ => rfl) (fun _ _ => rfl) s d st v

/-- A change of the queues that keeps each one's place and its executing descriptors. -/
theorem executing_mget_map {f : Nat × Queue → Nat × Queue} (hkey : ∀ p, (f p).1 = p.1) (hexec : ∀ p, (f p).2.executing = p.2.executing)
    (m : Map Queue) (k : Nat) : (mget {} (m.map f) k : Queue).executing = (mget {} m k : Queue).executing := by
  induction m with
  | nil => rfl
  | cons p r ih =>
    simp only [mget, List.map_cons, mfind, hkey p] at ih ⊢
    split
    · exact hexec p
    · exact ih

@[simp] theorem State.executing_setSyncFlag (s : State) (fn n v g r : Nat) :
    ((s.setSyncFlag fn n v).queue g r).executing = (s.queue g r).executing := by
  refine executing_mget_map (fun p => ?_) (fun p => ?_) s.host.queues (g * 64 + r)
  · dsimp only
    split <;> rfl
  · dsimp only
    split
    · dsimp only
      split <;> rfl
    · rfl

@[simp] theorem State.queue_toHost (s : State) (fn : Nat) (o : Output) (g r : Nat) : (s.toHost fn o).queue g r = s.queue g r := by
  rw [State.toHost]
  split <;> rfl

@[simp] theorem State.executing_entryOut (s : State) (fn : Nat) (o : Output) (flag g r : Nat) :
    ((s.entryOut fn o flag).queue g r).executing = (s.queue g r).executing := by
  rw [State.entryOut]
  split
  · dsimp only
    split
    · rw [State.addSyncFlag, State.executing_setSyncFlag, State.queue_toHost]
    · rw [State.queue_toHost]
  · rfl

/-- A completed descriptor leaves the executing ones of its queue. -/
theorem State.executing_complete {s : State} {d : DescRef} (hcore : s.faults.coreFault = false)
    (hexec : (s.queue d.fn d.queue).executing.any (fun x => x.order == d.order) = true) (st v : Nat) :
    ((s.complete d st v).queue d.fn d.queue).executing = (s.queue d.fn d.queue).executing.filter (fun x => decide (x.order ≠ d.order)) := by
  have hphase : ∀ (b : Prop) [Decidable b] (u : State) n,
      (if b then u.setField d.fn (qpos d.queue) 48 48 n else u).queue d.fn d.queue = u.queue d.fn d.queue := fun b _ u n => by
    split <;> rfl
  rw [State.complete, if_neg (by rw [hcore, hexec]; decide)]
  dsimp only
  split
  · rw [State.queue_toHost, State.executing_entryOut, hphase, State.queue_of_setField, State.queue_setQueue_same]
  · rw [State.executing_entryOut, hphase, State.queue_of_setField, State.queue_setQueue_same]

/-- No descriptor of its order executes any more. -/
theorem State.not_executing_complete {s : State} {d : DescRef} (hcore : s.faults.coreFault = false)
    (hexec : (s.queue d.fn d.queue).executing.any (fun x => x.order == d.order) = true) (st v : Nat) :
    ((s.complete d st v).queue d.fn d.queue).executing.any (fun x => x.order == d.order) = false := by
  rw [State.executing_complete hcore hexec, List.any_filter, List.any_eq_false]
  intro x _
  simp

/-! ### SHELF_ZEROED and EXTENT_ZEROED (R207, R218, R270) -/

@[simp] theorem State.setShelf_mem (s : State) (c sh : Nat) (st : Option Bool) : (s.setShelf c sh st).mem = s.mem := rfl

theorem State.shelves_setShelf_none (s : State) (c sh : Nat) : mfind ((s.setShelf c sh none).ctx c).shelves sh = none := by
  rw [State.setShelf, State.ctx_modCtx_same]
  exact mfind_mdel_same _ sh

theorem exec_shelfZeroed_dirty {s : State} {c sh : Nat} (h : mfind (s.ctx c).shelves sh = some false) :
    exec (.shelfZeroed c sh) s =
      .next ((s.cellarZero ((s.ctx c).base + (s.ctx c).params.shelfBase + 131072 * sh) 131072).setShelf c sh none) := by
  change execShelfZeroed c sh s = _
  rw [execShelfZeroed, if_pos h]

theorem exec_extentZeroed_creating {s : State} {c : Nat} {d : DescRef} (hphase : (s.ctx c).phase = .creating)
    (hd : (s.ctx c).creating = some d) :
    exec (.extentZeroed c) s = .next (((s.cellarZero (s.ctx c).base (s.ctx c).params.extentBytes).setCtx c
      { s.ctx c with phase := .empty, creating := none }).complete d stOk (s.ctx c).base) := by
  change execExtentZeroed c s = _
  rw [execExtentZeroed]
  dsimp only
  rw [hphase, hd]

/-! ### The staging entries (R224) -/

theorem State.mem_setStage {s : State} {o n : StageFetch} (ho : o ∈ s.mem.staging) (hc : o.ctx = n.ctx) (he : o.entry = n.entry)
    (hs : o.step = n.step) : n ∈ (s.setStage n).mem.staging := List.mem_map.2 ⟨o, ho, if_pos ⟨hc, he, hs⟩⟩

/-- A write of the cellar keeps every staging entry but for the mark that its destination is intact (R422). -/
theorem State.staging_cellarWrite {s : State} {o : StageFetch} (ho : o ∈ s.mem.staging) (a : Nat) (bs : List Byte) (poison : Bool) :
    ∃ i, { o with intact := i } ∈ (s.cellarWrite a bs poison).mem.staging := by
  have hmem := List.mem_map_of_mem (f := fun e : StageFetch =>
    let d := (s.ctx e.ctx).base + e.cellar
    if e.written = e.pages ∧ d < a + bs.length ∧ a < d + 4096 * e.pages then { e with intact := false } else e) ho
  dsimp only at hmem
  split at hmem
  · exact ⟨false, hmem⟩
  · exact ⟨o.intact, hmem⟩

theorem mem_stageRefill {l : List StageFetch} {o : StageFetch} (ho : o ∈ l) : o ∈ stageRefill l := by
  refine List.mem_flatMap.2 ⟨o, ho, ?_⟩
  split
  · exact List.mem_singleton_self o
  · exact List.mem_cons_self

/-- Behind a fetch that has begun stands one of a later step. -/
theorem exists_later_mem_stageRefill {l : List StageFetch} {o : StageFetch} (ho : o ∈ l) (hstarted : o.started = true) :
    ∃ n ∈ stageRefill l, n.ctx = o.ctx ∧ n.entry = o.entry ∧ o.step < n.step := by
  by_cases hlater : l.any (fun n => n.ctx == o.ctx && n.entry == o.entry && decide (o.step < n.step)) = true
  · obtain ⟨n, hn, hmatch⟩ := List.any_eq_true.1 hlater
    simp only [Bool.and_eq_true, beq_iff_eq, decide_eq_true_eq] at hmatch
    exact ⟨n, mem_stageRefill hn, hmatch.1.1, hmatch.1.2, hmatch.2⟩
  · refine ⟨o.next, List.mem_flatMap.2 ⟨o, ho, ?_⟩, rfl, rfl, Nat.lt_succ_self o.step⟩
    rw [hstarted, Bool.eq_false_iff.2 hlater]
    exact List.mem_cons_of_mem _ (List.mem_singleton_self _)

/-! ### STAGING_FETCH_START (R224) -/

/-- The staging entries once the fetch of `o` has begun: what an earlier step's fetch left no longer counts, and the next fetch stands
ready. -/
def State.stagingBegun (s : State) (c e : Nat) (o : StageFetch) : List StageFetch :=
  stageRefill ((s.setStage { o with started := true }).mem.staging.filter (fun p => !(p.ctx == c && p.entry == e && p.passed)))

theorem exec_stagingFetchStart_begins {s : State} {c e : Nat} {o : StageFetch} (hquiet : s.quiesced = false)
    (hfind : s.mem.staging.find? (fun x => x.ctx == c && x.entry == e && !x.started) = some o) (hpoison : o.poisoned = false)
    (hactive : (s.active (c / 256)).contains c = true) (hlead : s.dueBeat o < s.planBeats c + o.lead) :
    exec (.stagingFetchStart c e) s = .next { s with mem := { s.mem with staging := s.stagingBegun c e o } } := by
  have hgo : (!s.quiesced && !o.poisoned && (s.active (c / 256)).contains c && decide (s.dueBeat o < s.planBeats c + o.lead)) = true := by
    rw [hquiet, hpoison, hactive, decide_eq_true hlead]
    rfl
  change execStagingFetchStart c e s = _
  rw [execStagingFetchStart, hfind]
  dsimp only
  rw [if_pos hgo]
  rfl

/-- The fetch that begins has not passed its due beat, and stays beside the one of a later step. -/
theorem State.mem_stagingBegun {s : State} {c e : Nat} {o : StageFetch} (ho : o ∈ s.mem.staging) (hpassed : o.passed = false) :
    { o with started := true } ∈ s.stagingBegun c e o ∧
      ∃ n ∈ s.stagingBegun c e o, n.ctx = o.ctx ∧ n.entry = o.entry ∧ o.step < n.step := by
  have hkept : { o with started := true } ∈
      (s.setStage { o with started := true }).mem.staging.filter (fun p => !(p.ctx == c && p.entry == e && p.passed)) :=
    List.mem_filter.2 ⟨State.mem_setStage ho rfl rfl rfl, by simp [hpassed]⟩
  exact ⟨mem_stageRefill hkept, exists_later_mem_stageRefill (o := { o with started := true }) hkept rfl⟩

/-! ### VAULT_PAGE_READ (R222, R283) -/

theorem State.stageOf_eq_some {s : State} {c e : Nat} {o : StageFetch} (h : s.stageOf c e = some o) :
    o ∈ s.mem.staging ∧ o.ctx = c ∧ o.entry = e := by
  rw [State.stageOf] at h
  have hmatch := List.find?_some h
  simp only [Bool.and_eq_true, beq_iff_eq] at hmatch
  obtain ⟨⟨⟨⟨⟨hc, he⟩, -⟩, -⟩, -⟩, -⟩ := hmatch
  exact ⟨List.mem_of_find?_eq_some h, hc, he⟩

/-- A fold stays where it is over elements that leave it there. -/
theorem foldl_of_fixed {α β : Type} {f : β → α → β} {b : β} {l : List α} (h : ∀ a ∈ l, f b a = b) : l.foldl f b = b := by
  induction l with
  | nil => rfl
  | cons a l ih =>
    rw [List.foldl_cons, h a List.mem_cons_self]
    exact ih fun x hx => h x (List.mem_cons_of_mem a hx)

/-- A page before the last, verified at its first read or, where that fails, at its second. -/
theorem exec_vaultPageRead_verified {s : State} {c e ad : Nat} {o : StageFetch} {p : VaultPlace} {data rec bs : List Byte}
    {first : List (List Byte × List Byte)} (hquiet : s.quiesced = false) (hstage : s.stageOf c e = some o)
    (hlast : o.written + 1 < o.pages) (hplace : s.vaultPlace (c / 256) (o.vault + 4096 * o.written) = some p)
    (hfail : ∀ r ∈ first, openVaultPage (mget {} s.mem.keys (s.ctx c).keySlot).gcmKey p (o.vault + 4096 * o.written) r.1 r.2 = none)
    (hfew : first.length ≤ 1)
    (hopen : openVaultPage (mget {} s.mem.keys (s.ctx c).keySlot).gcmKey p (o.vault + 4096 * o.written) data rec = some bs)
    (hcheck : s.checkExtent (some c) (o.cellar + 4096 * o.written) bs.length = .ok ad) (faults : List SymFault) :
    exec (.vaultPageRead c e (first ++ [(data, rec)]) faults) s =
      .next ((s.cellarWrite ad bs false).setStage { o with written := o.written + 1, data := o.data ++ bs }) := by
  have htwo : (first ++ [(data, rec)]).take 2 = first ++ [(data, rec)] :=
    List.take_of_length_le (by rw [List.length_append, List.length_singleton]; omega)
  change execVaultPageRead c e (first ++ [(data, rec)]) faults s = _
  rw [execVaultPageRead, hstage]
  dsimp only
  rw [hquiet, hplace, htwo]
  dsimp only
  rw [if_neg Bool.false_ne_true, List.foldl_append, foldl_of_fixed (l := first), List.foldl_cons, List.foldl_nil]
  · dsimp only
    rw [hopen]
    dsimp only
    rw [if_neg (Nat.ne_of_lt hlast), State.ctxWrite_of_checkExtent hcheck]
  · exact hfail

/-- The entry of a fetch in progress after the write of its page. -/
theorem State.mem_setStage_cellarWrite {s : State} {c e : Nat} {o : StageFetch} (hstage : s.stageOf c e = some o) (a : Nat)
    (bs page : List Byte) : { o with written := o.written + 1, data := page } ∈
      ((s.cellarWrite a bs false).setStage { o with written := o.written + 1, data := page }).mem.staging := by
  obtain ⟨ho, -, -⟩ := State.stageOf_eq_some hstage
  obtain ⟨i, hi⟩ := State.staging_cellarWrite ho a bs false
  exact State.mem_setStage hi rfl rfl rfl

end Sys2Proof.Machine
end

section
open Sys2Proof Sys2Proof.Machine

/-- Settles O23: each of the four commands by the state it answers, with the cellar read through the span it zeroes or writes and the
staging entries through the one it replaces. -/
theorem memoryZeroedAndStaged : Obligations.MemoryZeroedAndStaged := by
  refine ⟨fun s c sh => ⟨fun hdirty => ?_, fun d hphase hd hcore hexec => ?_⟩,
    fun s c e ad o hquiet => ⟨fun hfind hpassed hpoison hactive hlead => ?_,
      fun data rec bs p first faults hstage hlast hplace hfail hfew hopen hcheck => ?_⟩⟩
  · refine ⟨_, exec_shelfZeroed_dirty hdirty, State.shelves_setShelf_none _ c sh, fun a => ?_⟩
    rw [State.setShelf_mem, State.readByte_cellarZero, Nat.mul_succ, ← Nat.add_assoc]
  · refine ⟨_, exec_extentZeroed_creating hphase hd, ?_, ?_, ?_, fun a => ?_⟩
    · rw [State.ctx_congr (State.complete_ctxs _ _ _ _), State.ctx_setCtx_same]
    · rw [State.ctx_congr (State.complete_ctxs _ _ _ _), State.ctx_setCtx_same]
    · refine State.not_executing_complete ?_ ?_ _ _
      · exact hcore
      · exact hexec
    · rw [State.complete_mem, State.setCtx_mem, State.readByte_cellarZero]
  · obtain ⟨hbegun, n, hn, hc, he, hstep⟩ := State.mem_stagingBegun (c := c) (e := e) (List.mem_of_find?_eq_some hfind) hpassed
    have hmatch := List.find?_some hfind
    simp only [Bool.and_eq_true, beq_iff_eq] at hmatch
    obtain ⟨⟨hoc, hoe⟩, -⟩ := hmatch
    exact ⟨_, exec_stagingFetchStart_begins hquiet hfind hpoison hactive hlead, hbegun, ⟨n, hn, hc.trans hoc, he.trans hoe, hstep⟩, rfl, rfl, rfl⟩
  · obtain ⟨-, hoc, hoe⟩ := State.stageOf_eq_some hstage
    exact ⟨_, exec_vaultPageRead_verified hquiet hstage hlast hplace hfail hfew hopen hcheck faults,
      fun a => s.readByte_cellarWrite ad bs false a,
      ⟨_, State.mem_setStage_cellarWrite hstage ad bs _, hoc, hoe, rfl, rfl, rfl⟩, rfl, rfl⟩
end
